-- ==== Sys2Proof/Word.lean ====
section
/-! DEFINITION. The words of the loop and the numbers of the numbered things (00_scope.md, "Units and conventions"). -/

namespace Sys2Proof

/-- One byte of a telegram (R4). -/
abbrev Byte := BitVec 8

/-- A field number: the field count of a round, wrapping from 65535 to 0 (R10). -/
abbrev Field := BitVec 16

/-- A film frame number, 0 to 65535 (R45, R46). -/
abbrev Frame := BitVec 16

/-- A cue id as two bytes carry it; a loaded cue has one from 1 to 999 (R60). -/
abbrev CueId := BitVec 16

/-- A loop address, four bits of the address byte (Table 0-2). -/
abbrev Station := BitVec 4

/-- The number of a chain less one: chain n stands at index n − 1. -/
abbrev ChainNo := Fin 8

/-- A multiplexer input less one. -/
abbrev InputNo := Fin 4

/-- The number of a permit table less one. -/
abbrev TableNo := Fin 8

/-- The number of a frame window less one. -/
abbrev WindowNo := Fin 16

/-- The number of a watch less one. -/
abbrev WatchNo := Fin 16

/-- An alarm source, 0 to 41 (Table 9-1). -/
abbrev Source := Fin 42

/-- An alarm level; 0 is the most urgent (R157). -/
abbrev Level := Fin 8

end Sys2Proof
end

