-- ==== Sys2Proof/Syntax.lean ====
section
/-! DEFINITION. The commands of the block: one constructor for each row of spec/opcode_table.json. -/

namespace Sys2Proof

/-- A telegram as it stands once the assembler has accepted it (section 1.2, R4): the check byte has done its work. -/
structure Telegram where
  dest    : Station
  src     : Station
  kind    : Byte
  payload : List Byte
deriving DecidableEq, Repr

/-- One character off the line (R3, R5): the sample periods between the end of the stop bit before it and its own
start edge, its eight data bits, and whether it is bad (parity or framing error). -/
structure RxChar where
  gap  : Nat
  data : Byte
  bad  : Bool
deriving DecidableEq, Repr

/-- The contact of the TAKE button or the HOLD switch (section 6.3). -/
inductive Contact where
  | opened
  | closed
deriving DecidableEq, Repr

/-- The commands. `params` are the bytes after the selector of a DESK COMMAND, as Table 12-2 lays them out, of any
length: a wrong length is refused with LENGTH (R189). `elapsed` counts the receive sample periods since the last
timed event (log 1). `take` and `hold` are the contacts at the moment of the command, for the field close it may
declare (R119). -/
inductive Instr where
  /-- The supply comes up (R19). -/
  | powerUp
  /-- RST becomes active (R19). -/
  | rstAssert
  /-- The filtered FLD input falls (R7). -/
  | fieldSyncArrival (elapsed : Nat) (take hold : Contact)
  /-- Time runs on without an accepted sync, to a flywheel expiry if one is due by then (R8). -/
  | flywheelExpiry (elapsed : Nat) (take hold : Contact)
  /-- The flywheel count's rise to 3, taken alone (R9, log 3). -/
  | syncLoss
  /-- Characters that make a telegram fail reach the assembler (R3 to R5). -/
  | telegramFail (chars : List RxChar)
  /-- A telegram that R6 discards is received. -/
  | ignoredTelegram (telegram : Telegram)
  /-- A FIELD HEAD returns (R15). -/
  | fieldHeadReturn (field : Field) (flags : Byte)
  /-- A ROUND END returns (R15, R17). -/
  | roundEndReturn (field : Field) (take hold : Contact)
  /-- The broken count's rise to 3, taken alone (R18, log 3). -/
  | loopLoss
  /-- A telegram of the controller other than FIELD HEAD and ROUND END returns (R16). -/
  | ownTelegramReturn (dest : Station) (kind : Byte) (payload : List Byte)
  /-- A CHAIN REPORT is received (R24 to R41). -/
  | chainReport (unit dest : Station) (payload : List Byte)
  /-- A pending swap is taken (R69, R70). -/
  | swapTaken
  /-- A MUX REPORT is received (R127). -/
  | muxReport (unit dest : Station) (payload : List Byte)
  /-- The field-close settling of one chain that makes it stale, taken alone (R38, log 3). -/
  | chainStale (chain : ChainNo)
  /-- The field-close settling of one chain that makes it ABSENT, taken alone (R39, log 3). -/
  | chainAbsent (chain : ChainNo)
  /-- The field-close count of one FIRED cue that ends its confirmation, taken alone (R92, R97, log 3). -/
  | confirmTimeout (id : CueId)
  /-- The recheck of one WITHHELD cue that ends its waiting, taken alone (R91, log 3). -/
  | withheldTooLong (id : CueId)
  /-- The follow examination of one cue that finds it due, taken alone (R56, log 3). -/
  | followDue (id : CueId)
  /-- The sample of one watch that brings its count to the limit, taken alone (R148 to R151, log 3). -/
  | watchLimitReached (watch : WatchNo)
  /-- The rise of the dwell counter to the dwell, taken alone (R180, log 3). -/
  | periodicSnapshot
  | loadCue (params : List Byte)
  | deleteCue (params : List Byte)
  | clearBank (params : List Byte)
  | swap (params : List Byte)
  | cancelSwap (params : List Byte)
  | abandon (params : List Byte)
  | take (params : List Byte)
  | allStop (params : List Byte)
  | setChain (params : List Byte)
  | setGroup (params : List Byte)
  | clearFault (params : List Byte)
  | setPermit (params : List Byte)
  | setWindow (params : List Byte)
  | clearWindow (params : List Byte)
  | setWatch (params : List Byte)
  | setAlarm (params : List Byte)
  | setAlmThreshold (params : List Byte)
  | setSnapshot (params : List Byte)
  | setRehearse (params : List Byte)
  | setWithholdLimit (params : List Byte)
  | acknowledge (params : List Byte)
  | snap (params : List Byte)
  | readSnapshots (params : List Byte)
  | readStatus (params : List Byte)
  | readChain (params : List Byte)
  | readGroup (params : List Byte)
  | readCue (params : List Byte)
  | readBank (params : List Byte)
  | readWatch (params : List Byte)
  | readPermit (params : List Byte)
  | readWindow (params : List Byte)
  | readAlarms (params : List Byte)
  | clear (params : List Byte)
  | resetController (params : List Byte)
  /-- A DESK COMMAND whose selector names no command (R189). -/
  | unknownSelector (selector : Byte) (params : List Byte)
  /-- RST becomes inactive (R19). -/
  | rstRelease
  /-- The shifter sends the last character of the round it is sending (R1). -/
  | roundEndShiftedOut
deriving DecidableEq, Repr

end Sys2Proof
end

