-- ==== Sys2Proof/Decode.lean ====
section
/-! DEFINITION. The words of the commands: spec/opcode_table.json gives no row any bits, so no word spells a command. -/

namespace Sys2Proof

/-- The command a table word spells: none, because the table gives no row any bits (log 35). -/
def decodeTableWord (_nbits _w : Nat) : Option Instr := none

end Sys2Proof
end

