-- ==== Sys2Proof/Config.lean ====
section
/-! DEFINITION. What the data book leaves open: free values, opaque constants that nothing in Lean can evaluate. -/

namespace Sys2Proof.Config

/-- Which order the works of a field close take, the n-th time their order matters: R82, R112, R122 and R123 say
"either may come first". Log 4. -/
opaque closeOrder : Nat → Nat

/-- Which of a field sync, a flywheel expiry and a received telegram is taken first when they fall on one sample
period, the n-th time that happens: R7 gives both outcomes for a sync and an expiry. Log 26. -/
opaque tieOrder : Nat → Nat

/-- What stands in a one-byte item of a reply for a number above 255: Chapter 12 gives the item one byte and no rule for
such a number. Log 18. -/
opaque wideItem : Nat → Byte

end Sys2Proof.Config
end

