-- ==== Sys2Proof/Machine/State.lean ====
section
/-! DEFINITION. Every piece of state the data book gives the controller, as plain data, and its value after full reset. -/

namespace Sys2Proof.Machine

/-- No command of the controller stops it: trouble is an alarm, a refusal is a reply, a bad telegram is discarded. So there is
no fault. -/
inductive Fault where
deriving DecidableEq, Repr

/-- The reasons a command has no meaning. -/
inductive Refusal where
  /-- An arm of exec that has no meaning yet; no arm answers with it (safe: it only stops). -/
  | notModelled (mnemonic : String)
deriving DecidableEq, Repr

/-! ### Loop port (Chapter 1) -/

/-- Where the receiver stands in a character (R2, R3). `left` counts the samples to the next look at the filtered
level, `gap` the samples between the last stop bit's end and the start edge. -/
inductive RxPhase where
  | waiting
  | startBit (left gap : Nat)
  | inCharacter (bits : List Bool) (left gap : Nat)
  | waitMark
deriving DecidableEq, Repr

/-- The telegram assembler (R4): in IN TELEGRAM the characters so far, in order, and whether one of them was bad. -/
inductive Assembler where
  | awaitAddress
  | inTelegram (got : List Byte) (bad : Bool)
  | hunt
deriving DecidableEq, Repr

/-- The transmit shifter (R1): the rounds whose characters are still to be sent, oldest first, and how many sample
periods of the first character have gone. -/
structure Shifter where
  rounds   : List (List Byte) := []
  position : Nat := 0
deriving DecidableEq, Repr

/-- The loop port (R1 to R5); `true` is mark. -/
structure LoopPort where
  filtered    : Bool := true
  lastSample  : Bool := true
  phase       : RxPhase := .waiting
  lastStopEnd : Nat := 0
  assembler   : Assembler := .hunt
  shifter     : Shifter := {}
deriving DecidableEq, Repr

/-! ### Round master (Chapter 1) -/

inductive SyncState where
  | unlocked | learning | locked | lost
deriving DecidableEq, Repr

/-- The current round: none launched since reset, launched with its FIELD HEAD not back, its return window open, or
complete (R15, R17). -/
inductive RoundPhase where
  | noRound | awaited | windowOpen | complete
deriving DecidableEq, Repr

/-- An action set of class 3: the telegrams of one cue that wait together (R12, R89). -/
structure ActionSet where
  cue       : CueId
  telegrams : List Telegram
deriving DecidableEq, Repr

/-- An entry of the placed list (R16). -/
structure Placed where
  telegram : Telegram
  cue      : CueId
  matched  : Bool := false
deriving DecidableEq, Repr

inductive GroupId where
  | a | b
deriving DecidableEq, Repr

/-- The cause of an alarm detail, in the order of the ALARM NOTICE codes 0 to 20 (R159, section 12.4). -/
inductive Cause where
  | none
  | confirmTimeout | undelivered | contradicted | withheldTooLong | chainLost | chainFaulted | missed | muxFault
  | noTake | hold | condition | permit
  | brk | gate | lamp | cadence
  | faulted | speed | silent | runOut
deriving DecidableEq, Repr

/-- The detail of a raising (R159). -/
structure Detail where
  chain : Option ChainNo := none
  group : Option GroupId := none
  cue   : Option CueId := none
  cause : Cause := .none
  field : Field
deriving DecidableEq, Repr

/-- An ALARM NOTICE waiting in class 4 (R164). -/
structure Notice where
  source    : Source
  level     : Level
  again     : Bool
  detail    : Detail
  inService : Nat
  field     : Field
deriving DecidableEq, Repr

/-- The refusal reasons of R190, in the order of their codes 1 to 12. -/
inductive Reason where
  | busy | full | duplicate | notFound | badReference | badField | live | notTop | notInService | stillFaulty
  | unknown | length
deriving DecidableEq, Repr

/-- A DESK REPLY waiting in class 5 (R190); `outcome` none is ACCEPTED. -/
structure Reply where
  selector : Byte
  key      : Option (BitVec 16) := none
  outcome  : Option Reason := none
  field    : Field
  part     : Nat := 1
  last     : Bool := true
  data     : List Byte := []
deriving DecidableEq, Repr

/-- The round master (R7 to R20) with the outbound queue (R12). -/
structure RoundMaster where
  sync         : SyncState := .unlocked
  keptInterval : Option Nat := none
  lastLaunch   : Option Nat := none
  reference    : Option Nat := none
  flywheel     : Nat := 0
  broken       : Nat := 0
  fieldCount   : Field := 0
  phase        : RoundPhase := .noRound
  reported     : List Station := []
  placed       : List Placed := []
  allStop      : Bool := false
  sets         : List ActionSet := []
  notices      : List Notice := []
  replies      : List Reply := []
  fldFiltered  : Bool := true
  fldSample    : Bool := true
deriving DecidableEq, Repr

/-! ### Chain records (Chapter 2) -/

inductive Cadence where
  | twoTwo | twoThree
deriving DecidableEq, Repr

inductive Motor where
  | off | runUp | atSpeed | spooling | runningDown
deriving DecidableEq, Repr

inductive Lamp where
  | standby | up | failed
deriving DecidableEq, Repr

/-- The chain states of Table 2-3, in its order. -/
inductive ChainState where
  | absent | idle | spooling | cued | runUp | atSpeed | runDown | faulted
deriving DecidableEq, Repr

inductive FaultCause where
  | none | brk | gate | lamp | cadence
deriving DecidableEq, Repr

/-- The configuration part (Table 2-1). -/
structure ChainConfig where
  enabled    : Bool := true
  cadence    : Cadence := .twoTwo
  runUp      : Nat := 50
  lampLead   : Nat := 0
  spoolLimit : Nat := 9000
  runOut     : Frame := 0
deriving DecidableEq, Repr

/-- The reported values (Table 2-2, R24): what a CHAIN REPORT carries. -/
structure Reported where
  frame     : Frame := 0
  phase     : BitVec 2 := 0
  motor     : Motor := .off
  direction : BitVec 2 := 0
  lamp      : Lamp := .standby
  dowser    : Bool := false
  brk       : Bool := false
  gate      : Bool := false
deriving DecidableEq, Repr

/-- The commanded motion (Table 2-5). -/
inductive Motion where
  | none
  | spoolTo (target : Frame)
  | run (expected : Field)
  | stop
deriving DecidableEq, Repr

inductive LampCommand where
  | none | up | standby
deriving DecidableEq, Repr

inductive ShutterCommand where
  | none | opened | closed
deriving DecidableEq, Repr

/-- The commanded part (Table 2-5), which the cue engine writes (R42). -/
structure Commanded where
  motion     : Motion := .none
  lamp       : LampCommand := .none
  shutter    : ShutterCommand := .none
  parkTarget : Option Frame := none
deriving DecidableEq, Repr

/-- A chain record (Tables 2-1, 2-2 and 2-5). -/
structure ChainRecord where
  config           : ChainConfig := {}
  reported         : Reported := {}
  heard            : Bool := false
  coasted          : Bool := false
  stale            : Bool := false
  referenceDropped : Bool := false
  coastCount       : Nat := 0
  missingCount     : Nat := 0
  slipCount        : Nat := 0
  faultCause       : FaultCause := .none
  state            : ChainState := .absent
  commanded        : Commanded := {}
deriving DecidableEq, Repr

/-! ### Cue engine (Chapters 3 to 5) -/

inductive CueKind where
  | park | start | changeover | stop | shutter | mark
deriving DecidableEq, Repr

inductive Release where
  | auto | take | gated | follow
deriving DecidableEq, Repr

inductive Sense where
  | opening | closing
deriving DecidableEq, Repr

/-- The cue states, in the order of R61. -/
inductive CueState where
  | waiting | armed | withheld | fired | done | failed | abandoned
deriving DecidableEq, Repr

inductive WithholdReason where
  | none | noTake | hold | condition | permit
deriving DecidableEq, Repr

inductive FailureCause where
  | none | confirmTimeout | undelivered | contradicted | withheldTooLong | chainLost | chainFaulted | missed | muxFault
deriving DecidableEq, Repr

/-- The loaded fields as stored (R60). -/
structure CueFields where
  id        : CueId
  chain     : ChainNo
  kind      : CueKind
  reference : Option ChainNo := none
  frame     : Frame := 0
  offset    : Int := 0
  release   : Release
  follow    : Option CueId := none
  permit    : Option TableNo := none
  snapshot  : Bool := false
  sense     : Option Sense := none
deriving DecidableEq, Repr

/-- The runtime fields with their entry values (R61); `effectField` and `expected` exist while the cue is FIRED
(R88, R97, log 15). -/
structure CueRuntime where
  state         : CueState := .waiting
  late          : Bool := false
  shortfall     : Nat := 0
  dueField      : Option Field := none
  firedField    : Option Field := none
  lampSent      : Bool := false
  takeGiven     : Bool := false
  reason        : WithholdReason := .none
  withholdCount : Nat := 0
  confirmCount  : Nat := 0
  rehearsed     : Bool := false
  cause         : FailureCause := .none
  effectField   : Option Field := none
  expected      : Option Field := none
deriving DecidableEq, Repr

/-- A cue record (section 4.1). -/
structure Cue where
  fields  : CueFields
  runtime : CueRuntime := {}
deriving DecidableEq, Repr

/-- The cue engine: the two banks by their roles (R59), the swap-pending and rehearse flags, the late and withhold
limit (R53), and the update field of each chain (R45). -/
structure CueEngine where
  live        : List Cue := []
  preset      : List Cue := []
  swapPending : Bool := false
  rehearse    : Bool := false
  limit       : Nat := 50
  updateField : Vector (Option Field) 8 := Vector.replicate 8 none
deriving DecidableEq, Repr

/-! ### Permits, windows and the operator lines (Chapter 6) -/

/-- The conditions of Table 6-1. -/
inductive Condition where
  | always | incomingReady | atSpeed | clean | referenceOnAir | inMark | referenceInMark | hold | takeGiven | rehearse
  | watch (watch : WatchNo)
deriving DecidableEq, Repr

/-- A permit table (R108): entry i permits when bit i of `entries` is 1. -/
structure PermitTable where
  selectors : Vector Condition 4 := Vector.replicate 4 .always
  entries   : BitVec 16 := 0xFFFF
deriving DecidableEq, Repr

inductive WindowEffect where
  | mark
  | mask (cadence late watch : Bool)
deriving DecidableEq, Repr

/-- A set frame window (R113). -/
structure Window where
  chain  : ChainNo
  first  : Frame
  last   : Frame
  effect : WindowEffect
deriving DecidableEq, Repr

/-- A line filter (R119): the last sample or absent, the accepted level or unknown. -/
structure LineFilter where
  last     : Option Contact := none
  accepted : Option Contact := none
deriving DecidableEq, Repr

/-! ### Groups (Chapter 7) -/

/-- A set of the four air-fault causes (R135). -/
structure AirCauses where
  faulted : Bool := false
  speed   : Bool := false
  silent  : Bool := false
  runOut  : Bool := false
deriving DecidableEq, Repr

/-- A changeover in flight (R124, R130). -/
structure InFlight where
  cue      : CueId
  incoming : ChainNo
  input    : InputNo
  outgoing : Option ChainNo
deriving DecidableEq, Repr

/-- A group record (R124). -/
structure GroupRecord where
  map      : Vector (Option ChainNo) 4 := Vector.replicate 4 none
  selected : Option (Fin 5) := none
  fault    : Bool := false
  holder   : Option ChainNo := none
  causes   : AirCauses := {}
  inFlight : Option InFlight := none
deriving DecidableEq, Repr

/-! ### Watches (Chapter 8) -/

/-- The signals of Table 8-1. -/
inductive Signal where
  | frameAdvance | reportPresent | atSpeed | motorCommanded | lampUp | dowserOpen | onAir | inMark | takeLine | holdLine
  | watch (watch : WatchNo)
deriving DecidableEq, Repr

inductive WatchMode where
  | gap | delay | oneshot | count | edge
deriving DecidableEq, Repr

inductive EdgeSetting where
  | rise | fall | both
deriving DecidableEq, Repr

/-- A watch record (R143). -/
structure Watch where
  enabled   : Bool := false
  chain     : ChainNo := 0
  signal    : Signal := .reportPresent
  qualifier : Option Signal := none
  mode      : WatchMode := .gap
  edge      : EdgeSetting := .rise
  limit     : Nat := 1
  count     : Nat := 0
  output    : Bool := false
  previous  : Option Bool := none
deriving DecidableEq, Repr

/-- The watch bank (R143, R145). -/
structure WatchBank where
  watches : Vector Watch 16 := Vector.replicate 16 {}
  seen    : Vector (Option Frame) 8 := Vector.replicate 8 none
deriving DecidableEq, Repr

/-! ### Alarm unit (Chapter 9) -/

/-- The setting of a maskable source (R157). -/
structure Setting where
  level  : Level := 7
  masked : Bool := true
deriving DecidableEq, Repr

/-- A pending record whose raised flag is set (R158); a source with none is not pending. -/
structure PendingRecord where
  again  : Bool := false
  detail : Detail
deriving DecidableEq, Repr

/-- An entry of the in-service list (R162). -/
structure Entry where
  source : Source
  level  : Level
  again  : Bool
  detail : Detail
deriving DecidableEq, Repr

/-- The alarm unit (R157 to R169). The setting at index 0 is never read: AIR FAULT has none (R157). -/
structure AlarmUnit where
  settings  : Vector Setting 42 := Vector.replicate 42 {}
  pending   : Vector (Option PendingRecord) 42 := Vector.replicate 42 none
  inService : List Entry := []
  threshold : Level := 7
  alm       : Bool := false
deriving DecidableEq, Repr

/-! ### Snapshot buffer (Chapter 10) -/

inductive TriggerKind where
  | cue | alarm | periodic | desk
deriving DecidableEq, Repr

/-- A position cell (R175). -/
structure PositionCell where
  chain   : ChainNo
  state   : ChainState
  frame   : Frame
  phase   : BitVec 2
  motor   : Motor
  air     : Bool
  coasted : Bool
  stale   : Bool
deriving DecidableEq, Repr

/-- A snapshot (R174): its header, whose record count is the number of its position cells, and those cells. -/
structure Snapshot where
  field : Field
  kind  : TriggerKind
  tag   : Option (BitVec 16)
  cells : List PositionCell
deriving DecidableEq, Repr

/-- The trigger settings (R177). `chainMask` bit n − 1 is chain n. -/
structure TriggerSettings where
  cue        : Bool := false
  alarm      : Bool := false
  periodic   : Bool := false
  dwell      : Nat := 250
  level      : Level := 0
  chainMask  : BitVec 8 := 0
  almostFull : Nat := 448
deriving DecidableEq, Repr

inductive ReadoutState where
  | idle | sending | cancelling
deriving DecidableEq, Repr

/-- The readout record (R183). -/
structure Readout where
  state    : ReadoutState := .idle
  owed     : Nat := 0
  nextCell : Nat := 1
  number   : Nat := 0
deriving DecidableEq, Repr

/-- The snapshot buffer (R174 to R187). -/
structure SnapshotBuffer where
  store      : List Snapshot := []
  settings   : TriggerSettings := {}
  dwellCount : Nat := 0
  almostFull : Bool := false
  readout    : Readout := {}
deriving DecidableEq, Repr

/-! ### The whole machine -/

/-- The levels of the five input pins (Table 12-5); `true` is high. -/
structure Pins where
  lrx  : Bool := true
  fld  : Bool := true
  take : Bool := true
  hold : Bool := true
  rst  : Bool := true
deriving DecidableEq, Repr

/-- The state of the controller. The last four fields are the model's own: the instant, the pin levels still to be
sampled, the count of free orders drawn, and the queue of commands. -/
structure State where
  port     : LoopPort := {}
  round    : RoundMaster := {}
  chains   : Vector ChainRecord 8 := Vector.replicate 8 {}
  cues     : CueEngine := {}
  permits  : Vector PermitTable 8 := Vector.replicate 8 {}
  windows  : Vector (Option Window) 16 := Vector.replicate 16 none
  take     : LineFilter := {}
  hold     : LineFilter := {}
  groupA   : GroupRecord := {}
  groupB   : GroupRecord := {}
  watches  : WatchBank := {}
  alarms   : AlarmUnit := {}
  snaps    : SnapshotBuffer := {}
  pins     : Pins := {}
  now      : Nat := 0
  inputs   : List Pins := []
  choices  : Nat := 0
  pending  : List Instr := []
deriving DecidableEq, Repr

/-- The controller right after a full reset (R19, R43, R76, R107, R108, R113, R119, R142, R156, R172, R187, R203). -/
def State.reset : State := {}

end Sys2Proof.Machine
end

