-- ==== Sys2Proof/Machine/Ops.lean ====
section
/-! DEFINITION. The named operations: access to the records, field arithmetic (Chapter 3), and the outbound queue (R12). -/

namespace Sys2Proof.Machine

/-! ### Tables of numbered things -/

/-- A table with `f` applied at every index. -/
def mapTable {α β : Type} {n : Nat} (f : α → β) (v : Vector α n) : Vector β n :=
  ⟨(v.toList.map f).toArray, by simp⟩

/-- The eight chains in number order. -/
def allChains : List ChainNo := [0, 1, 2, 3, 4, 5, 6, 7]

/-- The sixteen watches in number order (R146). -/
def allWatches : List WatchNo := [0, 1, 2, 3, 4, 5, 6, 7, 8, 9, 10, 11, 12, 13, 14, 15]

/-- The number of a chain, 1 to 8. -/
def chainNumber (n : ChainNo) : Nat := n.val + 1

/-- The loop address of a chain's unit (Table 0-2). -/
def chainAddress (n : ChainNo) : Station := BitVec.ofNat 4 (chainNumber n)

/-- The loop address of a group's multiplexer (Table 0-2). -/
def groupAddress : GroupId → Station
  | .a => 9
  | .b => 10

/-! ### The lists the data book's classes are -/

/-- The longest front part of a list all of whose items have the property. -/
def takeFront {α : Type} (p : α → Bool) : List α → List α
  | [] => []
  | a :: rest => if p a then a :: takeFront p rest else []

/-! ### Records -/

/-- The field count in force (R10). -/
def State.fieldCount (s : State) : Field := s.round.fieldCount

/-- The record of a chain (section 2.1). -/
def State.chain (s : State) (n : ChainNo) : ChainRecord := s.chains[n]

/-- Replace the record of one chain. -/
def State.setChain (s : State) (n : ChainNo) (r : ChainRecord) : State :=
  { s with chains := s.chains.set n r }

/-- Replace the commanded part of one chain (R42). -/
def State.setCommanded (s : State) (n : ChainNo) (c : Commanded) : State :=
  s.setChain n { s.chain n with commanded := c }

/-- The record of a group (R124). -/
def State.group (s : State) : GroupId → GroupRecord
  | .a => s.groupA
  | .b => s.groupB

/-- Replace the record of one group. -/
def State.setGroup (s : State) (g : GroupId) (r : GroupRecord) : State :=
  match g with
  | .a => { s with groupA := r }
  | .b => { s with groupB := r }

/-- The input of a group to which a chain is mapped. -/
def GroupRecord.inputOf (r : GroupRecord) (n : ChainNo) : Option InputNo :=
  [0, 1, 2, 3].find? (fun (i : InputNo) => r.map[i] == some n)

/-- The group and input to which a chain is mapped, if it is in a group (R125: it is in at most one). -/
def State.groupOf (s : State) (n : ChainNo) : Option (GroupId × InputNo) :=
  match s.groupA.inputOf n with
  | some i => some (.a, i)
  | none => (s.groupB.inputOf n).map (fun i => (.b, i))

/-- The air holder of the group a chain is in. -/
def State.holderFor (s : State) (n : ChainNo) : Option ChainNo :=
  match s.groupOf n with
  | some (g, _) => (s.group g).holder
  | none => none

/-- Whether a chain is the air holder of its group (R141). -/
def State.onAir (s : State) (n : ChainNo) : Bool := s.holderFor n == some n

/-- Replace the telegram assembler's state (R4). -/
def State.setAssembler (s : State) (a : Assembler) : State :=
  { s with port := { s.port with assembler := a } }

/-- Whether RST is active; the line is active low (Table 12-5). -/
def State.rstActive (s : State) : Bool := !s.pins.rst

/-- The pin level of a contact: a closed contact pulls its input low (section 6.3). -/
def contactLevel : Contact → Bool
  | .opened => true
  | .closed => false

/-- The contact that a pin level shows. -/
def levelContact (level : Bool) : Contact := if level then .opened else .closed

/-- The TAKE and HOLD contacts stand as given from now on. -/
def State.setContacts (s : State) (take hold : Contact) : State :=
  { s with pins := { s.pins with take := contactLevel take, hold := contactLevel hold } }

/-- A full reset: every block at its reset values, the outside as it is (R19). The queue, the instant, the pin levels and
the count of free orders are no block's state (log 21). -/
def State.fullReset (s : State) : State :=
  { State.reset with
    port := { lastStopEnd := s.now }
    pins := s.pins, now := s.now, inputs := s.inputs, choices := s.choices, pending := s.pending }

/-! ### Cue records -/

/-- The cue of a bank with the given id (R59: at most one). -/
def findCue (bank : List Cue) (id : CueId) : Option Cue := bank.find? (fun c => c.fields.id == id)

/-- A bank with the runtime fields of the cue with the given id replaced. -/
def putRuntime (bank : List Cue) (id : CueId) (r : CueRuntime) : List Cue :=
  bank.map (fun c => if c.fields.id == id then { c with runtime := r } else c)

/-- The LIVE cue with the given id. -/
def State.liveCue (s : State) (id : CueId) : Option Cue := findCue s.cues.live id

/-- Replace the runtime fields of a LIVE cue (R61: only LIVE cues change). -/
def State.setRuntime (s : State) (id : CueId) (r : CueRuntime) : State :=
  { s with cues := { s.cues with live := putRuntime s.cues.live id r } }

/-- A cue with its entry runtime values (R61). -/
def Cue.atEntry (c : Cue) : Cue := { c with runtime := {} }

/-- The reference chain of a cue, its own chain when it names none (R60). -/
def CueFields.referenceChain (f : CueFields) : ChainNo := f.reference.getD f.chain

/-- A finished cue state (R72). -/
def CueState.finished : CueState → Bool
  | .fired | .done | .failed | .abandoned => true
  | .waiting | .armed | .withheld => false

/-- The cue that names an AUTO or GATED cue of any kind but PARK is frame-timed (R50). -/
def CueFields.frameTimed (f : CueFields) : Bool :=
  (f.release == .auto || f.release == .gated) && f.kind != .park

/-! ### Field arithmetic (Chapter 3) -/

/-- Two field numbers compared: a signed difference modulo 65536 (00_scope.md, "Field count and field numbers"). -/
def fieldDiff (a b : Field) : Int := (a - b).toInt

/-- Field a is not earlier than field b. -/
def notEarlier (a b : Field) : Bool := decide (0 ≤ fieldDiff a b)

/-- The fields of a frame under a cadence (section 2.2). -/
def fieldsOf (c : Cadence) (frame : Nat) : Nat :=
  match c with
  | .twoTwo => 2
  | .twoThree => if frame % 2 = 0 then 2 else 3

/-- The position one field later (R33). -/
def successor (c : Cadence) (frame : Frame) (phase : BitVec 2) : Frame × BitVec 2 :=
  if phase.toNat + 1 < fieldsOf c frame.toNat then (frame, phase + 1) else (frame + 1, 0)

/-- Fields from frame c at phase p to a frame t not before c (R46). -/
def fieldsAhead (cad : Cadence) (c p t : Nat) : Int :=
  match cad with
  | .twoTwo => 2 * ((t - c : Nat) : Int) - p
  | .twoThree => 5 * (((t - c) / 2 : Nat) : Int) + (((t - c) % 2 * fieldsOf .twoThree c : Nat) : Int) - p

/-- Fields-to-frame G(c, p, t) (R46, R47). -/
def fieldsToFrame (cad : Cadence) (c p t : Nat) : Int :=
  if c < t then fieldsAhead cad c p t else -(fieldsAhead cad t 0 c + p)

/-- What the due distance takes off: the loop latency and the lead of the kind (R48); a MARK has neither. -/
def latencyAndLead (kind : CueKind) (runUp : Nat) : Int :=
  match kind with
  | .start => 2 + runUp
  | .mark => 0
  | .park | .changeover | .stop | .shutter => 2

/-- The due distance of a frame-timed cue on the present position of its reference chain (R48, R49). -/
def State.dueDistance (s : State) (f : CueFields) : Int :=
  let ref := s.chain f.referenceChain
  fieldsToFrame ref.config.cadence ref.reported.frame.toNat ref.reported.phase.toNat f.frame.toNat + f.offset
    - latencyAndLead f.kind (s.chain f.chain).config.runUp

/-- Field u moved by a signed number of fields, modulo 65536 (R51). -/
def moveField (u : Field) (d : Int) : Field := BitVec.ofInt 16 ((u.toNat : Int) + d)

/-- The shortfall of a cue with the given due field at field g (R52): the signed difference, 0 to 255. -/
def shortfallAt (g : Field) (due : Option Field) : Nat :=
  match due with
  | none => 0
  | some d => min 255 (fieldDiff g d).toNat

/-! ### The outbound queue (R12) -/

/-- Queue an action set at the tail of class 3 (R89). -/
def State.queueSet (s : State) (set : ActionSet) : State :=
  { s with round := { s.round with sets := s.round.sets ++ [set] } }

/-- Whether an action set of the cue waits in class 3. -/
def State.setWaits (s : State) (id : CueId) : Bool := s.round.sets.any (fun a => a.cue == id)

/-- Add telegrams to the waiting set of a cue, which keeps its place (R89). -/
def State.joinSet (s : State) (id : CueId) (more : List Telegram) : State :=
  { s with round := { s.round with
      sets := s.round.sets.map (fun a => if a.cue == id then { a with telegrams := a.telegrams ++ more } else a) } }

/-- Withdraw the waiting set of a cue; class 3 closes up (R12, R77). -/
def State.withdrawSet (s : State) (id : CueId) : State :=
  { s with round := { s.round with sets := s.round.sets.filter (fun a => a.cue != id) } }

/-- Withdraw every waiting set (R104, R105). -/
def State.withdrawAllSets (s : State) : State := { s with round := { s.round with sets := [] } }

/-- Queue an ALARM NOTICE: when sixteen wait, the oldest is removed (R12). -/
def State.queueNotice (s : State) (n : Notice) : State :=
  let kept := if s.round.notices.length ≥ 16 then s.round.notices.drop 1 else s.round.notices
  { s with round := { s.round with notices := kept ++ [n] } }

/-- Queue replies at the tail of class 5 (R190, R196). -/
def State.queueReplies (s : State) (rs : List Reply) : State :=
  { s with round := { s.round with replies := s.round.replies ++ rs } }

end Sys2Proof.Machine
end

