-- ==== Sys2Proof/Machine/Operands.lean ====
section
/-! DEFINITION. The byte layouts of Chapter 12: what a received payload means and what a sent telegram holds. -/

namespace Sys2Proof.Machine

/-! ### Bytes -/

/-- A two-byte quantity, least significant byte first (Chapter 12). -/
def word (lo hi : Byte) : BitVec 16 := hi ++ lo

/-- The bytes of a two-byte quantity, least significant first. -/
def wordBytes (w : BitVec 16) : List Byte := [w.setWidth 8, (w >>> 8).setWidth 8]

/-- A number as one byte. -/
def byteOf (n : Nat) : Byte := BitVec.ofNat 8 n

/-- A quantity that takes one byte (Chapter 12); what stands there for a number above 255 the data book does not say, and it is
a free value (log 18). -/
def itemByte (n : Nat) : Byte := if n < 256 then byteOf n else Config.wideItem n

/-- Up to eight yes/no items gathered into a byte, the first in bit 0 (section 12.4). -/
def flagByte : List Bool → Byte
  | [] => 0
  | b :: rest => (flagByte rest <<< 1) ||| (if b then 1 else 0)

/-- Yes/no items gathered eight to a byte, in order. -/
def flagBytes : List Bool → List Byte
  | a :: b :: c :: d :: e :: f :: g :: h :: rest => flagByte [a, b, c, d, e, f, g, h] :: flagBytes rest
  | [] => []
  | few => [flagByte few]

/-- A numbered thing from its number: 1 to n at index 0 to n − 1. -/
def indexOf (n : Nat) (b : Byte) : Option (Fin n) :=
  if h : 1 ≤ b.toNat ∧ b.toNat ≤ n then some ⟨b.toNat - 1, by omega⟩ else none

/-- A yes/no value, coded 0 and 1 (section 12.3). -/
def yesNo (b : Byte) : Option Bool := if b = 0 then some false else if b = 1 then some true else none

/-- A number brought to the nearest end of a range (R192). -/
def clampNat (lo hi n : Nat) : Nat := max lo (min hi n)

/-- A signed number brought to the nearest end of a range (R192). -/
def clampInt (lo hi n : Int) : Int := max lo (min hi n)

/-! ### Codes of Tables 12-3 and 12-4 and section 12.3 -/

inductive BankName where
  | live | preset
deriving DecidableEq, Repr

def bankOf (b : Byte) : Option BankName := if b = 1 then some .live else if b = 2 then some .preset else none

def groupOfCode (b : Byte) : Option GroupId := if b = 1 then some .a else if b = 2 then some .b else none

def groupCode : GroupId → Nat
  | .a => 1
  | .b => 2

def cadenceOf (b : Byte) : Option Cadence := if b = 0 then some .twoTwo else if b = 1 then some .twoThree else none

def kindOf (b : Byte) : Option CueKind :=
  match b.toNat with
  | 1 => some .park | 2 => some .start | 3 => some .changeover | 4 => some .stop | 5 => some .shutter | 6 => some .mark
  | _ => none

def kindCode : CueKind → Nat
  | .park => 1 | .start => 2 | .changeover => 3 | .stop => 4 | .shutter => 5 | .mark => 6

def releaseOf (b : Byte) : Option Release :=
  match b.toNat with
  | 1 => some .auto | 2 => some .take | 3 => some .gated | 4 => some .follow
  | _ => none

def releaseCode : Release → Nat
  | .auto => 1 | .take => 2 | .gated => 3 | .follow => 4

def senseOf (b : Byte) : Option Sense := if b = 1 then some .opening else if b = 2 then some .closing else none

def senseCode : Sense → Nat
  | .opening => 1
  | .closing => 2

def modeOf (b : Byte) : Option WatchMode :=
  match b.toNat with
  | 1 => some .gap | 2 => some .delay | 3 => some .oneshot | 4 => some .count | 5 => some .edge
  | _ => none

def modeCode : WatchMode → Nat
  | .gap => 1 | .delay => 2 | .oneshot => 3 | .count => 4 | .edge => 5

def edgeOf (b : Byte) : Option EdgeSetting :=
  match b.toNat with
  | 1 => some .rise | 2 => some .fall | 3 => some .both
  | _ => none

def edgeCode : EdgeSetting → Nat
  | .rise => 1 | .fall => 2 | .both => 3

/-- WATCH k, coded 15 + k for k from 1 to 16 (Tables 12-3 and 12-4). -/
def watchOfCode (b : Byte) : Option WatchNo :=
  if h : 16 ≤ b.toNat ∧ b.toNat ≤ 31 then some ⟨b.toNat - 16, by omega⟩ else none

def watchCode (k : WatchNo) : Nat := 16 + k.val

def signalOf (b : Byte) : Option Signal :=
  match b.toNat with
  | 1 => some .frameAdvance | 2 => some .reportPresent | 3 => some .atSpeed | 4 => some .motorCommanded
  | 5 => some .lampUp | 6 => some .dowserOpen | 7 => some .onAir | 8 => some .inMark | 9 => some .takeLine
  | 10 => some .holdLine
  | _ => (watchOfCode b).map .watch

def signalCode : Signal → Nat
  | .frameAdvance => 1 | .reportPresent => 2 | .atSpeed => 3 | .motorCommanded => 4 | .lampUp => 5 | .dowserOpen => 6
  | .onAir => 7 | .inMark => 8 | .takeLine => 9 | .holdLine => 10
  | .watch k => watchCode k

def conditionOf (b : Byte) : Option Condition :=
  match b.toNat with
  | 0 => some .always | 1 => some .incomingReady | 2 => some .atSpeed | 3 => some .clean | 4 => some .referenceOnAir
  | 5 => some .inMark | 6 => some .referenceInMark | 7 => some .hold | 8 => some .takeGiven | 9 => some .rehearse
  | _ => (watchOfCode b).map .watch

def conditionCode : Condition → Nat
  | .always => 0 | .incomingReady => 1 | .atSpeed => 2 | .clean => 3 | .referenceOnAir => 4 | .inMark => 5
  | .referenceInMark => 6 | .hold => 7 | .takeGiven => 8 | .rehearse => 9
  | .watch k => watchCode k

/-- The window effect byte (section 12.3). -/
def effectOf (b : Byte) : Option WindowEffect :=
  if b = 1 then some .mark
  else if b.getLsbD 7 && b.extractLsb' 3 4 == 0 && b.extractLsb' 0 3 != 0 then
    some (.mask (b.getLsbD 0) (b.getLsbD 1) (b.getLsbD 2))
  else none

def effectByte : WindowEffect → Byte
  | .mark => 1
  | .mask cadence late watch => flagByte [cadence, late, watch, false, false, false, false, true]

def motorOf (b : BitVec 3) : Option Motor :=
  match b.toNat with
  | 0 => some .off | 1 => some .runUp | 2 => some .atSpeed | 3 => some .spooling | 4 => some .runningDown
  | _ => none

def motorCode : Motor → Nat
  | .off => 0 | .runUp => 1 | .atSpeed => 2 | .spooling => 3 | .runningDown => 4

def lampOf (b : BitVec 2) : Option Lamp :=
  match b.toNat with
  | 0 => some .standby | 1 => some .up | 2 => some .failed
  | _ => none

def lampCode : Lamp → Nat
  | .standby => 0 | .up => 1 | .failed => 2

/-- Chain states 0 to 7 in the order of Table 2-3 (section 12.4). -/
def chainStateCode : ChainState → Nat
  | .absent => 0 | .idle => 1 | .spooling => 2 | .cued => 3 | .runUp => 4 | .atSpeed => 5 | .runDown => 6 | .faulted => 7

/-- Cue states 0 to 6 in the order of R61 (section 12.4). -/
def cueStateCode : CueState → Nat
  | .waiting => 0 | .armed => 1 | .withheld => 2 | .fired => 3 | .done => 4 | .failed => 5 | .abandoned => 6

/-- Causes 0 to 20 of an ALARM NOTICE (section 12.4). -/
def causeCode : Cause → Nat
  | .none => 0 | .confirmTimeout => 1 | .undelivered => 2 | .contradicted => 3 | .withheldTooLong => 4 | .chainLost => 5
  | .chainFaulted => 6 | .missed => 7 | .muxFault => 8 | .noTake => 9 | .hold => 10 | .condition => 11 | .permit => 12
  | .brk => 13 | .gate => 14 | .lamp => 15 | .cadence => 16 | .faulted => 17 | .speed => 18 | .silent => 19
  | .runOut => 20

/-- A failure cause as the cause of a detail (R159). -/
def FailureCause.asCause : FailureCause → Cause
  | .none => .none | .confirmTimeout => .confirmTimeout | .undelivered => .undelivered | .contradicted => .contradicted
  | .withheldTooLong => .withheldTooLong | .chainLost => .chainLost | .chainFaulted => .chainFaulted | .missed => .missed
  | .muxFault => .muxFault

/-- A withhold reason as the cause of a detail (R159). -/
def WithholdReason.asCause : WithholdReason → Cause
  | .none => .none | .noTake => .noTake | .hold => .hold | .condition => .condition | .permit => .permit

/-- A chain fault cause as the cause of a detail (R159). -/
def FaultCause.asCause : FaultCause → Cause
  | .none => .none | .brk => .brk | .gate => .gate | .lamp => .lamp | .cadence => .cadence

/-- The codes 1 to 12 of the refusal reasons, 0 for ACCEPTED (section 12.4). -/
def outcomeCode : Option Reason → Nat
  | none => 0
  | some .busy => 1 | some .full => 2 | some .duplicate => 3 | some .notFound => 4 | some .badReference => 5
  | some .badField => 6 | some .live => 7 | some .notTop => 8 | some .notInService => 9 | some .stillFaulty => 10
  | some .unknown => 11 | some .length => 12

/-- The trigger kinds 0 to 3 of a header cell (section 12.4). -/
def triggerCode : TriggerKind → Nat
  | .cue => 0 | .alarm => 1 | .periodic => 2 | .desk => 3

/-! ### Kinds of Table 12-1 -/

def kindFieldHead : Byte := 0x01
def kindRoundEnd : Byte := 0x02
def kindChainReport : Byte := 0x10
def kindMuxReport : Byte := 0x11
def kindDeskCommand : Byte := 0x20
def kindDeskReply : Byte := 0x21
def kindAlarmNotice : Byte := 0x22
def kindSnapshotData : Byte := 0x23
def kindSpoolTo : Byte := 0x40
def kindRun : Byte := 0x41
def kindStop : Byte := 0x42
def kindLampUp : Byte := 0x43
def kindLampStandby : Byte := 0x44
def kindShutterOpen : Byte := 0x45
def kindShutterClose : Byte := 0x46
def kindSelect : Byte := 0x47
def kindAllStop : Byte := 0x4F

/-! ### Telegrams as bytes (section 12.1, R204) -/

/-- The exclusive-or of bytes. -/
def checkOf : List Byte → Byte
  | [] => 0
  | b :: rest => b ^^^ checkOf rest

/-- The bytes of a telegram before its check byte: address, kind, length, payload (section 12.1). -/
def telegramBody (t : Telegram) : List Byte :=
  [t.dest ++ t.src, t.kind, byteOf t.payload.length] ++ t.payload

/-- The bytes of a telegram as sent, its check byte last (R204). -/
def telegramBytes (t : Telegram) : List Byte := telegramBody t ++ [checkOf (telegramBody t)]

/-- How many characters a telegram takes (section 1.2). -/
def telegramChars (t : Telegram) : Nat := 4 + t.payload.length

/-- A telegram the controller sends: source 0 (R204). -/
def ownTelegram (dest : Station) (kind : Byte) (payload : List Byte) : Telegram :=
  { dest := dest, src := 0, kind := kind, payload := payload }

/-- FIELD HEAD f with its three flags (R11, section 12.2). -/
def fieldHeadTelegram (f : Field) (rehearse alm swapPending : Bool) : Telegram :=
  ownTelegram 15 kindFieldHead (wordBytes f ++ [flagByte [rehearse, alm, swapPending]])

/-- ROUND END f (R11, section 12.2). -/
def roundEndTelegram (f : Field) : Telegram := ownTelegram 15 kindRoundEnd (wordBytes f)

/-- ALL STOP to every chain unit (R204, Table 12-1). -/
def allStopTelegram : Telegram := ownTelegram 15 kindAllStop []

/-- SPOOL TO a frame (R93, section 12.2). -/
def spoolToTelegram (n : ChainNo) (target : Frame) : Telegram :=
  ownTelegram (chainAddress n) kindSpoolTo (wordBytes target)

/-- An action to a chain unit that carries its cue id: RUN, STOP, LAMP UP, LAMP STANDBY, SHUTTER OPEN, SHUTTER CLOSE. -/
def cueAction (n : ChainNo) (kind : Byte) (id : CueId) : Telegram := ownTelegram (chainAddress n) kind (wordBytes id)

/-- SELECT an input of a multiplexer (R130, section 12.2). -/
def selectTelegram (g : GroupId) (i : InputNo) : Telegram :=
  ownTelegram (groupAddress g) kindSelect [byteOf (i.val + 1), 0]

/-- Bytes 2 to 7 of an ALARM NOTICE: a detail (section 12.4); bits without content are 0 (log 51). -/
def detailBytes (d : Detail) : List Byte :=
  let chain := match d.chain with
    | some n => chainNumber n
    | none => 0
  let group := match d.group with
    | some g => groupCode g
    | none => 0
  [byteOf (chain + 16 * group)] ++ wordBytes (d.cue.getD 0) ++ [byteOf (causeCode d.cause)] ++ wordBytes d.field

/-- Two bytes of an entry: its source, then its level with the repeat flag in bit 7 (section 12.4); bits without content are 0
(log 51). -/
def entryBytes (source : Source) (level : Level) (again : Bool) : List Byte :=
  [byteOf source.val, byteOf (level.val + if again then 128 else 0)]

/-- ALARM NOTICE (R164, section 12.4). -/
def noticeTelegram (n : Notice) : Telegram :=
  ownTelegram 14 kindAlarmNotice
    (entryBytes n.source n.level n.again ++ detailBytes n.detail ++ [byteOf n.inService] ++ wordBytes n.field)

/-- DESK REPLY (R190, section 12.4); bits without content are 0 (log 51). -/
def replyTelegram (r : Reply) : Telegram :=
  ownTelegram 14 kindDeskReply
    ([r.selector] ++ wordBytes (r.key.getD 0xFFFF) ++ [byteOf (outcomeCode r.outcome)] ++ wordBytes r.field
      ++ [byteOf (r.part + if r.last then 128 else 0), byteOf r.data.length] ++ r.data)

/-! ### Snapshot cells (section 12.4) -/

/-- The five bytes of a header cell; bits without content are 0 (the model's choice, log 51). -/
def headerBytes (s : Snapshot) : List Byte :=
  wordBytes s.field ++ [byteOf (s.cells.length + 16 * triggerCode s.kind)] ++ wordBytes (s.tag.getD 0xFFFF)

/-- The five bytes of a position cell; bits without content are 0 (the model's choice, log 51). -/
def positionBytes (c : PositionCell) : List Byte :=
  [byteOf (chainNumber c.chain + 16 * chainStateCode c.state)] ++ wordBytes c.frame
    ++ [byteOf (c.phase.toNat + 4 * motorCode c.motor), flagByte [c.air, c.coasted, c.stale]]

/-- The cells of a snapshot, each as its five bytes. -/
def Snapshot.cellBytes (s : Snapshot) : List (List Byte) := headerBytes s :: s.cells.map positionBytes

/-- SNAPSHOT DATA with a telegram number, cells, END and CANCELLED (section 12.4); bits without content are 0 (the model's choice,
log 51). -/
def snapshotDataTelegram (number : Nat) (cells : List (List Byte)) (last cancelled : Bool) : Telegram :=
  ownTelegram 14 kindSnapshotData
    ([byteOf number, byteOf (cells.length + (if last then 64 else 0) + if cancelled then 128 else 0)] ++ cells.flatten)

/-! ### Reports (section 12.2, R24, R127, R205) -/

/-- The reported values of a CHAIN REPORT, or none when it is malformed for its length or its codes (R24, R205); bit 7 of byte 2
is not read (the model's choice, log 47). -/
def decodeChainReport : List Byte → Option Reported
  | [lo, hi, b2, b3] =>
    match motorOf (b2.extractLsb' 2 3), lampOf (b3.extractLsb' 0 2) with
    | some motor, some lamp =>
      let direction := b2.extractLsb' 5 2
      if motor == .spooling && direction.toNat ≥ 2 then none
      else some { frame := word lo hi, phase := b2.extractLsb' 0 2, motor := motor, direction := direction, lamp := lamp,
                  dowser := b3.getLsbD 2, brk := b3.getLsbD 3, gate := b3.getLsbD 4 }
    | _, _ => none
  | _ => none

/-- A CHAIN REPORT checked against the chain's cadence too: its phase is less than the fields of its frame (R24). -/
def validChainReport (c : Cadence) (payload : List Byte) : Option Reported :=
  match decodeChainReport payload with
  | some r => if r.phase.toNat < fieldsOf c r.frame.toNat then some r else none
  | none => none

/-- The selected input and fault flag of a MUX REPORT, or none when it is malformed (R127, R205). -/
def decodeMuxReport : List Byte → Option (Fin 5 × Bool)
  | [input, fault] =>
    if h : input.toNat < 5 then (yesNo fault).map (fun f => (⟨input.toNat, h⟩, f)) else none
  | _ => none

end Sys2Proof.Machine
end

