-- ==== Sys2Proof/Machine/Flags.lean ====
section
/-! DEFINITION. The conditions that the blocks read off one another: readiness, windows, permits and watch signals. -/

namespace Sys2Proof.Machine

/-- INCOMING READY of a chain, in the field count in force (R58). -/
def State.incomingReady (s : State) (n : ChainNo) : Bool :=
  let r := s.chain n
  !r.stale && match r.state, r.commanded.motion with
    | .atSpeed, _ => true
    | .runUp, .run e => notEarlier (s.fieldCount + 2) e
    | _, _ => false

/-! ### Frame windows (section 6.2) -/

/-- Whether a window is active for a chain at a frame: set on that chain, the chain not ABSENT, the frame inside (R114). -/
def State.windowActive (s : State) (w : Option Window) (n : ChainNo) (frame : Frame) : Bool :=
  match w with
  | none => false
  | some w => w.chain == n && (s.chain n).state != .absent && decide (w.first.toNat ≤ frame.toNat)
      && decide (frame.toNat ≤ w.last.toNat)

/-- Whether an active window of the chain at the frame has an effect of the kind asked for (R114: effects combine). -/
def State.anyWindow (s : State) (n : ChainNo) (frame : Frame) (wanted : WindowEffect → Bool) : Bool :=
  s.windows.toList.any (fun w => s.windowActive w n frame && (w.map (fun w => wanted w.effect)).getD false)

def WindowEffect.isMark : WindowEffect → Bool
  | .mark => true
  | .mask _ _ _ => false

def WindowEffect.masksCadence : WindowEffect → Bool
  | .mark => false
  | .mask cadence _ _ => cadence

def WindowEffect.masksLate : WindowEffect → Bool
  | .mark => false
  | .mask _ late _ => late

def WindowEffect.masksWatch : WindowEffect → Bool
  | .mark => false
  | .mask _ _ watch => watch

/-- A chain is in mark at its recorded frame (R114, R115). -/
def State.inMark (s : State) (n : ChainNo) : Bool :=
  s.anyWindow n (s.chain n).reported.frame WindowEffect.isMark

/-- A CADENCE mask is active for a chain at the frame its report carries (R116). -/
def State.cadenceMasked (s : State) (n : ChainNo) (frame : Frame) : Bool :=
  s.anyWindow n frame WindowEffect.masksCadence

/-- A LATE mask is active for a chain at its recorded frame (R117). -/
def State.lateMasked (s : State) (n : ChainNo) : Bool :=
  s.anyWindow n (s.chain n).reported.frame WindowEffect.masksLate

/-- A WATCH mask is active for a chain at its recorded frame (R118). -/
def State.watchMasked (s : State) (n : ChainNo) : Bool :=
  s.anyWindow n (s.chain n).reported.frame WindowEffect.masksWatch

/-! ### The operator lines -/

/-- A line is seen closed: its accepted level is closed, not open and not unknown (R121, R123). -/
def LineFilter.isClosed (l : LineFilter) : Bool := l.accepted == some .closed

/-- HOLD is active (R121). -/
def State.holdActive (s : State) : Bool := s.hold.isClosed

/-! ### Permit tables (section 6.1) -/

/-- The value of a condition of Table 6-1 for the cue that asks (R110, R111). -/
def State.condition (s : State) (c : Cue) : Condition → Bool
  | .always => true
  | .incomingReady => s.incomingReady c.fields.chain
  | .atSpeed => (s.chain c.fields.chain).state == .atSpeed
  | .clean => (s.chain c.fields.chain).state != .faulted && !(s.chain c.fields.chain).stale
  | .referenceOnAir => s.holderFor c.fields.chain == some c.fields.referenceChain
  | .inMark => s.inMark c.fields.chain
  | .referenceInMark => s.inMark c.fields.referenceChain
  | .hold => s.holdActive
  | .takeGiven => c.runtime.takeGiven
  | .rehearse => s.cues.rehearse
  | .watch k => s.watches.watches[k].output

/-- The entry a table is read at: selector 1 has the lowest weight (R110). -/
def State.permitIndex (s : State) (c : Cue) (t : PermitTable) : Nat :=
  let bit (i : Fin 4) : Nat := if s.condition c t.selectors[i] then 1 else 0
  bit 0 + 2 * bit 1 + 4 * bit 2 + 8 * bit 3

/-- The permit check of a firing decision: a cue that names no table passes (R110). -/
def State.permitted (s : State) (c : Cue) : Bool :=
  match c.fields.permit with
  | none => true
  | some t => (s.permits[t]).entries.getLsbD (s.permitIndex c s.permits[t])

/-! ### Watch signals (section 8.2) -/

/-- REPORT PRESENT (Table 8-1). -/
def State.reportPresent (s : State) (n : ChainNo) : Bool :=
  (s.chain n).state != .absent && (s.chain n).missingCount == 0

/-- FRAME ADVANCE (Table 8-1, R145): false when the seen frame is absent. -/
def State.frameAdvance (s : State) (n : ChainNo) : Bool :=
  s.reportPresent n && match s.watches.seen[n] with
    | some f => f != (s.chain n).reported.frame
    | none => false

/-- The value of a signal for a bound chain (R144). -/
def State.signal (s : State) (n : ChainNo) : Signal → Bool
  | .frameAdvance => s.frameAdvance n
  | .reportPresent => s.reportPresent n
  | .atSpeed => (s.chain n).state == .atSpeed
  | .motorCommanded => match (s.chain n).commanded.motion with
      | .run _ => true
      | .spoolTo _ => true
      | .none => false
      | .stop => false
  | .lampUp => (s.chain n).state != .absent && (s.chain n).reported.lamp == .up
  | .dowserOpen => (s.chain n).state != .absent && (s.chain n).reported.dowser
  | .onAir => s.onAir n
  | .inMark => s.inMark n
  | .takeLine => s.take.isClosed
  | .holdLine => s.hold.isClosed
  | .watch k => s.watches.watches[k].output

end Sys2Proof.Machine
end

