-- ==== Sys2Proof/Machine/Alarms.lean ====
section
/-! DEFINITION. The alarm unit (Chapter 9) and the taking of snapshots (sections 10.1 to 10.3), which raise one another. -/

namespace Sys2Proof.Machine

/-! ### Sources (Table 9-1) -/

def srcAirFault : Source := 0
def srcLoopLoss : Source := 1
def srcSyncLoss : Source := 2
def srcChangeoverFailed : Source := 3
def srcChangeoverWithheld : Source := 4
def srcCueFailed : Source := 5
def srcCueWithheld : Source := 6
def srcCueLate : Source := 7
def srcActionUndelivered : Source := 8
def srcAlmostFull : Source := 9

/-- CHAIN n FAULT, source 9 + n (R30). -/
def srcChainFault (n : ChainNo) : Source := ⟨10 + n.val, by omega⟩

/-- CHAIN n SILENT, source 17 + n (R38). -/
def srcChainSilent (n : ChainNo) : Source := ⟨18 + n.val, by omega⟩

/-- WATCH n, source 25 + n (R154). -/
def srcWatch (k : WatchNo) : Source := ⟨26 + k.val, by omega⟩

/-- The 42 sources in number order. -/
def allSources : List Source := List.finRange 42

/-! ### Levels, masks and the ALM line -/

/-- The level of a source: AIR FAULT is always at level 0 (R157). -/
def AlarmUnit.level (a : AlarmUnit) (src : Source) : Level := if src = srcAirFault then 0 else a.settings[src].level

/-- Whether a source is masked: AIR FAULT never is (R157). -/
def AlarmUnit.masked (a : AlarmUnit) (src : Source) : Bool := src != srcAirFault && a.settings[src].masked

/-- A source is pending (R158). -/
def AlarmUnit.isPending (a : AlarmUnit) (src : Source) : Bool := a.pending[src].isSome

/-- A source is in service (R162). -/
def AlarmUnit.isInService (a : AlarmUnit) (src : Source) : Bool := a.inService.any (fun e => e.source == src)

/-- What the ALM line is to be: AIR FAULT pending or in service, or an unmasked pending source or an entry whose level is
at or more urgent than the threshold (R168). -/
def AlarmUnit.almWanted (a : AlarmUnit) : Bool :=
  a.isPending srcAirFault || a.isInService srcAirFault
    || allSources.any (fun src => a.isPending src && !a.masked src && decide (a.level src ≤ a.threshold))
    || a.inService.any (fun e => decide (e.level ≤ a.threshold))

/-- Replace the alarm unit. -/
def State.setAlarms (s : State) (a : AlarmUnit) : State := { s with alarms := a }

/-- Judge the ALM line afresh (R168). -/
def State.judgeAlm (s : State) : State := s.setAlarms { s.alarms with alm := s.alarms.almWanted }

/-! ### Selection and entry into service -/

/-- A candidate of selection: pending, unmasked and not in service (R163). -/
def AlarmUnit.candidate (a : AlarmUnit) (src : Source) : Bool :=
  a.isPending src && !a.masked src && !a.isInService src

/-- The more urgent of two, the earlier one on equal levels. -/
def AlarmUnit.moreUrgent (a : AlarmUnit) (best : Option Source) (src : Source) : Option Source :=
  match best with
  | none => some src
  | some b => if a.level src < a.level b then some src else some b

/-- The most urgent candidate: the smallest level, then the lowest source number (R163). -/
def AlarmUnit.mostUrgent (a : AlarmUnit) : Option Source :=
  (allSources.filter a.candidate).foldl a.moreUrgent none

/-- Whether a candidate at this level may enter: the list is empty or the level is strictly more urgent than the top
entry's recorded level (R163). -/
def AlarmUnit.mayEnter (a : AlarmUnit) (level : Level) : Bool :=
  match a.inService with
  | [] => true
  | top :: _ => decide (level < top.level)

/-- Entry into service of a pending source: on top, its pending record cleared, one ALARM NOTICE queued (R164). -/
def State.enterService (s : State) (src : Source) (p : PendingRecord) : State :=
  let level := s.alarms.level src
  let entry : Entry := { source := src, level := level, again := p.again, detail := p.detail }
  let s1 := s.setAlarms { s.alarms with
    inService := entry :: s.alarms.inService
    pending := s.alarms.pending.set src none }
  s1.queueNotice
    { source := src, level := level, again := p.again, detail := p.detail, inService := s.alarms.inService.length + 1,
      field := s.fieldCount }

/-- Selection: at most one pending source enters service (R163). -/
def State.select (s : State) : State :=
  match s.alarms.mostUrgent with
  | none => s
  | some src =>
    match s.alarms.pending[src] with
    | none => s
    | some p => if s.alarms.mayEnter (s.alarms.level src) then s.enterService src p else s

/-- Selection runs, then the ALM line is judged (R160, R161, R166, R167). -/
def State.selectAndJudge (s : State) : State := s.select.judgeAlm

/-! ### The snapshot store -/

/-- The cells of a snapshot: its header and its position cells (R174). -/
def Snapshot.size (x : Snapshot) : Nat := 1 + x.cells.length

/-- The cells held by a list of snapshots (R174). -/
def cellsHeld (store : List Snapshot) : Nat := (store.map Snapshot.size).sum

/-- The chains of the chain mask in number order (R177). -/
def TriggerSettings.chains (t : TriggerSettings) : List ChainNo := allChains.filter (fun n => t.chainMask.getLsbD n.val)

/-- The position cell of a chain as its records stand (R175). -/
def State.positionCell (s : State) (n : ChainNo) : PositionCell :=
  let r := s.chain n
  { chain := n, state := r.state, frame := r.reported.frame, phase := r.reported.phase, motor := r.reported.motor,
    air := s.onAir n, coasted := r.coasted, stale := r.stale }

/-- The snapshot that a request would make now (R176). -/
def State.newSnapshot (s : State) (kind : TriggerKind) (tag : Option (BitVec 16)) : Snapshot :=
  { field := s.fieldCount, kind := kind, tag := tag, cells := s.snaps.settings.chains.map s.positionCell }

/-- Whether the free cells suffice for a snapshot (R176). -/
def State.snapshotFits (s : State) : Bool :=
  decide (cellsHeld s.snaps.store + (1 + s.snaps.settings.chains.length) ≤ 512)

/-- The almost-full flag as a judgment would leave it (R182). -/
def SnapshotBuffer.fullNow (b : SnapshotBuffer) : Bool := decide (b.settings.almostFull ≤ cellsHeld b.store)

/-- Replace the snapshot buffer. -/
def State.setSnaps (s : State) (b : SnapshotBuffer) : State := { s with snaps := b }

/-- Take a snapshot whole or not at all and judge the almost-full flag, with nothing sent to the alarm unit yet (R176). -/
def State.storeSnapshot (s : State) (kind : TriggerKind) (tag : Option (BitVec 16)) : State :=
  if s.snapshotFits then
    let b := { s.snaps with store := s.snaps.store ++ [s.newSnapshot kind tag] }
    s.setSnaps { b with almostFull := b.fullNow }
  else s

/-! ### Raising and withdrawing -/

/-- Whether entering pending requests an alarm snapshot (R170). -/
def State.alarmSnapshotWanted (s : State) (src : Source) : Bool :=
  s.snaps.settings.alarm
    && (src == srcAirFault || (!s.alarms.masked src && decide (s.alarms.level src ≤ s.snaps.settings.level)))

/-- A raising up to the end of its own selection: the pending record, the snapshot test, selection, the ALM line (R160). -/
def State.raiseOnce (s : State) (src : Source) (d : Detail) : State :=
  match s.alarms.pending[src] with
  | some p =>
    (s.setAlarms { s.alarms with pending := s.alarms.pending.set src (some { p with again := true }) }).selectAndJudge
  | none =>
    let s1 := s.setAlarms { s.alarms with pending := s.alarms.pending.set src (some { detail := d }) }
    let s2 := if s1.alarmSnapshotWanted src then s1.storeSnapshot .alarm (some (BitVec.ofNat 16 src.val)) else s1
    s2.selectAndJudge

/-- A detail that carries nothing but the field count in force (R159). -/
def State.bareDetail (s : State) : Detail := { field := s.fieldCount }

/-- A raising (R160). When its alarm snapshot brings the store to the almost-full level, SNAPSHOT ALMOST FULL is raised once
the raising has been completed (R170, R182). -/
def State.raise (s : State) (src : Source) (d : Detail) : State :=
  let s1 := s.raiseOnce src d
  if !s.snaps.almostFull && s1.snaps.almostFull then s1.raiseOnce srcAlmostFull s1.bareDetail else s1

/-- A withdrawal (R161): it clears a pending record and then selection runs; it finds nothing in a source not pending. -/
def State.withdraw (s : State) (src : Source) : State :=
  if s.alarms.isPending src then
    (s.setAlarms { s.alarms with pending := s.alarms.pending.set src none }).selectAndJudge
  else s

/-- Judge the almost-full flag and tell the alarm unit of a change (R182). -/
def State.judgeAlmostFull (s : State) : State :=
  let full := s.snaps.fullNow
  let s1 := s.setSnaps { s.snaps with almostFull := full }
  if full && !s.snaps.almostFull then s1.raise srcAlmostFull s1.bareDetail
  else if !full && s.snaps.almostFull then s1.withdraw srcAlmostFull
  else s1

/-- A snapshot request of kind CUE, PERIODIC or DESK; the raising of SNAPSHOT ALMOST FULL is sent at once (R176, R182). -/
def State.requestSnapshot (s : State) (kind : TriggerKind) (tag : Option (BitVec 16)) : State :=
  let s1 := s.storeSnapshot kind tag
  if !s.snaps.almostFull && s1.snaps.almostFull then s1.raise srcAlmostFull s1.bareDetail
  else if s.snaps.almostFull && !s1.snaps.almostFull then s1.withdraw srcAlmostFull
  else s1

/-! ### Acknowledging and setting (sections 9.4 to 9.6) -/

/-- Remove the top entry and run selection (R166). -/
def State.acknowledgeTop (s : State) : State :=
  (s.setAlarms { s.alarms with inService := s.alarms.inService.drop 1 }).selectAndJudge

/-- The position of a source in the in-service list, counted from 1 at the top. -/
def entryPosition (src : Source) : List Entry → Nat → Option (Nat × Entry)
  | [], _ => none
  | e :: rest, i => if e.source = src then some (i, e) else entryPosition src rest (i + 1)

end Sys2Proof.Machine
end

