-- ==== Sys2Proof/Machine/Readout.lean ====
section
/-! DEFINITION. The readout of the snapshot store (section 10.4) and its cancelling. -/

namespace Sys2Proof.Machine

/-- The cells of the snapshots owed that are not yet sent, each as its five bytes (R184 step 1). -/
def SnapshotBuffer.cellsRemaining (b : SnapshotBuffer) : List (List Byte) :=
  ((b.store.take b.readout.owed).flatMap Snapshot.cellBytes).drop (b.readout.nextCell - 1)

/-- Snapshots leave the head as their last cell is sent: `sent` cells counted from the first cell of the head snapshot.
It gives the list left, the snapshots owed and the position of the next cell (R184). -/
def advanceStore : List Snapshot → Nat → Nat → List Snapshot × Nat × Nat
  | [], owed, sent => ([], owed, sent + 1)
  | x :: rest, owed, sent =>
    if x.size ≤ sent then advanceStore rest (owed - 1) (sent - x.size) else (x :: rest, owed, sent + 1)

/-- A telegram the buffer builds and the buffer once it is placed. -/
structure Built where
  telegram : Telegram
  buffer   : SnapshotBuffer

/-- The END telegram with no cells of a readout that owes nothing (R184 step 2). -/
def SnapshotBuffer.buildEmpty (b : SnapshotBuffer) : Built :=
  { telegram := snapshotDataTelegram b.readout.number [] true false
    buffer := { b with readout := { b.readout with state := .idle, number := b.readout.number + 1 } } }

/-- The END CANCELLED telegram (R186). -/
def SnapshotBuffer.buildCancelled (b : SnapshotBuffer) : Built :=
  { telegram := snapshotDataTelegram b.readout.number [] true true
    buffer := { b with readout := { b.readout with state := .idle, number := 0 } } }

/-- The telegram of the next k cells (R184 step 4). -/
def SnapshotBuffer.buildCells (b : SnapshotBuffer) (k : Nat) : Built :=
  let cells := b.cellsRemaining
  let last := decide (cells.length ≤ k)
  let a := advanceStore b.store b.readout.owed (b.readout.nextCell - 1 + k)
  { telegram := snapshotDataTelegram b.readout.number (cells.take k) last false
    buffer := { b with
      store := a.1
      readout := { state := if last then .idle else .sending, owed := a.2.1, nextCell := a.2.2,
                   number := b.readout.number + 1 } } }

/-- The buffer's answer to a request of the round master with the given space left (R184, R186). -/
def SnapshotBuffer.build (b : SnapshotBuffer) (space : Nat) : Option Built :=
  match b.readout.state with
  | .idle => none
  | .cancelling => if 6 ≤ space then some b.buildCancelled else none
  | .sending =>
    if space < 6 then none
    else if b.cellsRemaining.isEmpty then some b.buildEmpty
    else
      let k := min 4 (min b.cellsRemaining.length ((space - 6) / 5))
      if k = 0 then none else some (b.buildCells k)

/-- Cancel a readout: the list is emptied, a readout that is SENDING goes to CANCELLING (R186); that its next cell becomes 1 at
a change of the chain mask too is the model's choice (log 45). -/
def SnapshotBuffer.cancel (b : SnapshotBuffer) : SnapshotBuffer :=
  { b with
    store := []
    readout := if b.readout.state == .sending then
        { b.readout with state := .cancelling, owed := 0, nextCell := 1 }
      else b.readout }

/-- The buffer after CLEAR (R183, R186, R187). -/
def SnapshotBuffer.cleared (b : SnapshotBuffer) : SnapshotBuffer :=
  let c := b.cancel
  { c with
    dwellCount := 0
    almostFull := false
    readout := if c.readout.state == .cancelling then c.readout else {} }

/-- The total cells of the snapshots a readout will send (R183). -/
def SnapshotBuffer.cellsOwed (b : SnapshotBuffer) (owed : Nat) : Nat := cellsHeld (b.store.take owed)

/-- Whether this field close brings the dwell counter to the dwell (R180). -/
def SnapshotBuffer.dwellReached (b : SnapshotBuffer) : Bool :=
  b.settings.periodic && decide (b.settings.dwell ≤ b.dwellCount + 1)

/-- The dwell counter reaches the dwell: it returns to 0 and a PERIODIC snapshot is requested (R180). -/
def State.periodicSnapshot (s : State) : State :=
  (s.setSnaps { s.snaps with dwellCount := 0 }).requestSnapshot .periodic none

/-- The dwell counter's work at a field close (R180). -/
def State.dwellWork (s : State) : State :=
  if s.snaps.dwellReached then s.periodicSnapshot
  else if s.snaps.settings.periodic then s.setSnaps { s.snaps with dwellCount := s.snaps.dwellCount + 1 }
  else s.setSnaps { s.snaps with dwellCount := 0 }

end Sys2Proof.Machine
end

