-- ==== Sys2Proof/Machine/Firing.lean ====
section
/-! DEFINITION. The cue engine up to one state change of one cue: eligibility, the firing decision, firing, failing
(Chapters 4 and 5). What follows from a state change is handed back as tasks, which Agenda.lean carries out. -/

namespace Sys2Proof.Machine

/-- What the cue engine still has to do in the handling of one event, one item for each thing a rule makes it do next. -/
inductive Task where
  /-- Compute the eligibility of a chain (R72, R77 fifth). -/
  | eligible (chain : ChainNo)
  /-- Abandon a follower that is WAITING, ARMED or WITHHELD (R77 fourth). -/
  | abandonFollower (id : CueId)
  /-- Abandon a cue that ALL STOP took as ARMED, WITHHELD or FIRED (R105). -/
  | abandonStopped (id : CueId)
  /-- ABANDON of a cue that is not DONE, FAILED or ABANDONED (R106). -/
  | abandonNamed (id : CueId)
  /-- Evaluate an ARMED frame-timed cue (R50). -/
  | evaluate (id : CueId)
  /-- The take has been given to this cue (R82). -/
  | taken (id : CueId)
  /-- Recheck a WITHHELD cue at field close (R87, R91). -/
  | recheck (id : CueId)
  /-- The follow examination at the field close of field f (R56). -/
  | follow (id : CueId) (f : Field)
  /-- Fail a FIRED cue (R100). -/
  | fail (id : CueId) (cause : FailureCause)
  /-- A FIRED changeover is confirmed by its multiplexer's report (R132). -/
  | confirm (id : CueId)
  /-- Judge a FIRED PARK, STOP or SHUTTER by an arrival of field f (R92, R94, R98, R99). -/
  | judgeArrival (id : CueId) (f : Field)
  /-- Judge a FIRED START by its chain's entry into a state, at an arrival of a field or not at one (R97). -/
  | judgeEntry (id : CueId) (entered : ChainState) (arrival : Option Field)
  /-- Count the confirmation of a FIRED cue at the field close of field f (R92, R97). -/
  | countConfirm (id : CueId) (f : Field)
deriving DecidableEq, Repr

/-- The state after one state change and the tasks it brings. `swapped` says that a swap was taken, so that nothing left
over from the outgoing bank is carried out (R70). -/
structure Effect where
  state   : State
  tasks   : List Task := []
  swapped : Bool := false

/-- Nothing more to do. -/
def State.quiet (s : State) : Effect := { state := s }

/-! ### Eligibility (section 4.4) -/

/-- The head of a chain: its earliest LIVE cue that is not finished (R72). -/
def headOf (live : List Cue) (n : ChainNo) : Option Cue :=
  live.find? (fun c => c.fields.chain == n && !c.runtime.state.finished)

/-- The chains that have a head, in LIVE list order of their heads (R73). -/
def headsInOrder : List Cue → List ChainNo → List ChainNo
  | [], _ => []
  | c :: rest, seen =>
    if c.runtime.state.finished || seen.contains c.fields.chain then headsInOrder rest seen
    else c.fields.chain :: headsInOrder rest (c.fields.chain :: seen)

/-- Eligibility of every chain, as at a swap and after CLEAR (R73). -/
def State.eligibleAll (s : State) : List Task := (headsInOrder s.cues.live []).map .eligible

/-! ### Swapping the banks (section 4.3) -/

/-- Whether a cue holds a swap: WITHHELD or FIRED (R68). -/
def Cue.holdsSwap (c : Cue) : Bool := c.runtime.state == .withheld || c.runtime.state == .fired

/-- No LIVE cue is WITHHELD or FIRED (R68, R70). -/
def State.swapFree (s : State) : Bool := !s.cues.live.any Cue.holdsSwap

/-- The swap is taken (R69): the outgoing bank's sets and the placed list go, the roles exchange, the outgoing cues take
their entry values, the flag is cleared. Eligibility is the tasks that follow. -/
def State.takeSwap (s : State) : State :=
  { s with
    round := { s.round with
      sets := s.round.sets.filter (fun a => !s.cues.live.any (fun c => c.fields.id == a.cue))
      placed := [] }
    cues := { s.cues with live := s.cues.preset, preset := s.cues.live.map Cue.atEntry, swapPending := false } }

/-! ### One state change (R77) -/

/-- Clear the changeover in flight of a cue, in whichever group it stands (R131). -/
def GroupRecord.endFlight (r : GroupRecord) (id : CueId) : GroupRecord :=
  match r.inFlight with
  | some x => if x.cue = id then { r with inFlight := none } else r
  | none => r

/-- Clear the changeover in flight of a CHANGEOVER that leaves FIRED (R131). -/
def State.endFlight (s : State) (c : Cue) : State :=
  if c.fields.kind == .changeover && c.runtime.state == .fired then
    { s with groupA := s.groupA.endFlight c.fields.id, groupB := s.groupB.endFlight c.fields.id }
  else s

/-- The followers that a FAILED or ABANDONED cue takes with it, in list order (R77 fourth). -/
def followersOf (live : List Cue) (id : CueId) : List Task :=
  (live.filter (fun c => c.fields.follow == some id)).map (fun c => .abandonFollower c.fields.id)

/-- The steps of R77 after the alarm, for a cue `c` as it stood before the change, now with runtime fields `r` in place:
the unplaced set is withdrawn, the swap test is made, the followers and the eligibility follow as tasks. The followers of a FIRED
cue that fails are abandoned too (R80), against a worked variant of Chapter 7 (log 48). -/
def State.settleChange (s : State) (c : Cue) (r : CueRuntime) : Effect :=
  let gone := r.state == .done || r.state == .failed || r.state == .abandoned
  let s1 := if gone then s.withdrawSet c.fields.id else s
  if c.holdsSwap && s1.cues.swapPending && s1.swapFree then
    let s2 := s1.takeSwap
    { state := s2, tasks := s2.eligibleAll, swapped := true }
  else
    let followers := if r.state == .failed || r.state == .abandoned then followersOf s1.cues.live c.fields.id else []
    { state := s1, tasks := followers ++ [.eligible c.fields.chain] }

/-- The detail of a raising about a cue (R159). -/
def State.cueDetail (s : State) (c : Cue) (cause : Cause) : Detail :=
  { chain := some c.fields.chain, cue := some c.fields.id, cause := cause, field := s.fieldCount }

/-- CUE LATE is raised for a late cue unless a LATE mask is active for its chain (R52, R117). -/
def State.raiseLate (s : State) (c : Cue) : State :=
  if s.lateMasked c.fields.chain then s else s.raise srcCueLate (s.cueDetail c .none)

/-- A cue becomes FAILED (R100): the cause is recorded, the alarm of its kind raised. -/
def State.failCue (s : State) (c : Cue) (r : CueRuntime) (cause : FailureCause) : Effect :=
  let r' := { r with state := .failed, cause := cause, effectField := none, expected := none }
  let s1 := (s.setRuntime c.fields.id r').endFlight c
  let src := if c.fields.kind == .changeover then srcChangeoverFailed else srcCueFailed
  (s1.raise src (s1.cueDetail c cause.asCause)).settleChange c r'

/-- A cue becomes ABANDONED (R77, R106). -/
def State.abandonCue (s : State) (c : Cue) : Effect :=
  let r' := { c.runtime with state := .abandoned, effectField := none, expected := none }
  ((s.setRuntime c.fields.id r').endFlight c).settleChange c r'

/-- A FIRED cue is confirmed DONE (R92, R132). -/
def State.confirmCue (s : State) (c : Cue) : Effect :=
  let r' := { c.runtime with state := .done, effectField := none, expected := none }
  ((s.setRuntime c.fields.id r').endFlight c).settleChange c r'

/-! ### The firing decision (section 5.3) -/

/-- What a firing decision finds (R83, R85). -/
inductive Verdict where
  | completes
  | withheld (reason : WithholdReason)
  | passes
deriving DecidableEq, Repr

/-- A state in which a PARK or START can be fired (R84). -/
def ChainState.atRest : ChainState → Bool
  | .idle | .cued => true
  | .absent | .spooling | .runUp | .atSpeed | .runDown | .faulted => false

/-- The chain is already where the cue would bring it (R84). -/
def State.alreadyDone (s : State) (f : CueFields) : Bool :=
  let r := s.chain f.chain
  match f.kind with
  | .start => r.state == .runUp || r.state == .atSpeed
  | .changeover => s.onAir f.chain
  | .stop => r.state.atRest
  | .park | .shutter | .mark => false

/-- The built-in condition of a kind (R84). -/
def State.builtIn (s : State) (f : CueFields) : Bool :=
  let r := s.chain f.chain
  match f.kind with
  | .park | .start => r.state.atRest
  | .changeover => match s.groupOf f.chain with
      | none => false
      | some (g, _) => s.incomingReady f.chain && r.state != .faulted && (s.group g).inFlight.isNone
  | .stop => !r.state.atRest
  | .shutter => r.state != .absent
  | .mark => true

/-- The checks of a firing decision in their order (R83); under rehearse the built-in condition is treated as holding and
does not complete the cue (R103). -/
def State.verdict (s : State) (c : Cue) : Verdict :=
  if c.fields.release == .gated && !c.runtime.takeGiven then .withheld .noTake
  else if !s.cues.rehearse && s.alreadyDone c.fields then .completes
  else if !s.cues.rehearse && !s.builtIn c.fields then .withheld .condition
  else if s.holdActive then .withheld .hold
  else if !s.permitted c then .withheld .permit
  else .passes

/-- A failed decision: the cue enters or stays in WITHHELD; on entry its count is 0 and its alarm is raised (R86). -/
def State.withholdCue (s : State) (c : Cue) (reason : WithholdReason) : Effect :=
  if c.runtime.state == .withheld then
    (s.setRuntime c.fields.id { c.runtime with reason := reason }).quiet
  else
    let r' := { c.runtime with state := .withheld, reason := reason, withholdCount := 0 }
    let s1 := s.setRuntime c.fields.id r'
    let src := if c.fields.kind == .changeover then srcChangeoverWithheld else srcCueWithheld
    (s1.raise src (s1.cueDetail c reason.asCause)).settleChange c r'

/-- The runtime fields that every firing and completion in field g writes: fired field, shortfall and late flag (R52, R85, R88). -/
def CueRuntime.firedAt (r : CueRuntime) (g : Field) : CueRuntime :=
  { r with firedField := some g, shortfall := shortfallAt g r.dueField, late := decide (0 < shortfallAt g r.dueField) }

/-- CUE LATE when the shortfall is above 0, then the cue's snapshot when its flag is set and the CUE trigger is enabled
(R85, R88, R178). -/
def State.lateAndSnapshot (s : State) (c : Cue) (r : CueRuntime) : State :=
  let s1 := if r.late then s.raiseLate c else s
  if c.fields.snapshot && s1.snaps.settings.cue then s1.requestSnapshot .cue (some c.fields.id) else s1

/-- The cue becomes DONE at its decision: completion without action (R85), a MARK (R99), or a firing under rehearse (R103). -/
def State.doneAtOnce (s : State) (c : Cue) (rehearsed : Bool) : Effect :=
  let r := c.runtime.firedAt s.fieldCount
  let r' := { r with state := .done, rehearsed := r.rehearsed || rehearsed }
  ((s.setRuntime c.fields.id r').lateAndSnapshot c r').settleChange c r'

/-! ### Action sets and commanded parts (sections 5.6 and 7.3) -/

/-- The telegrams of a firing, in sending order (R93, R96, R98, R99, R130). -/
def State.actionsOf (s : State) (c : Cue) : List Telegram :=
  let n := c.fields.chain
  let id := c.fields.id
  match c.fields.kind with
  | .park => [spoolToTelegram n c.fields.frame]
  | .start =>
    (if 0 < (s.chain n).config.lampLead && !c.runtime.lampSent then [cueAction n kindLampUp id] else [])
      ++ [cueAction n kindRun id]
  | .stop => [cueAction n kindStop id, cueAction n kindShutterClose id, cueAction n kindLampStandby id]
  | .shutter => [cueAction n (if c.fields.sense == some .closing then kindShutterClose else kindShutterOpen) id]
  | .changeover => match s.groupOf n with
      | none => []
      | some (g, i) => [selectTelegram g i, cueAction n kindShutterOpen id]
          ++ (match (s.group g).holder with
              | some out => [cueAction out kindShutterClose id]
              | none => [])
  | .mark => []

/-- The expected at-speed field of a RUN queued now (R57). -/
def State.expectedField (s : State) (n : ChainNo) : Field :=
  s.fieldCount + 2 + BitVec.ofNat 16 (s.chain n).config.runUp

/-- Write the commanded part of the incoming and outgoing chain and set the changeover in flight (R130). -/
def State.commandChangeover (s : State) (f : CueFields) : State :=
  match s.groupOf f.chain with
  | none => s
  | some (g, i) =>
    let out := (s.group g).holder
    let s1 := s.setCommanded f.chain { (s.chain f.chain).commanded with shutter := .opened }
    let s2 := match out with
      | some o => s1.setCommanded o { (s1.chain o).commanded with shutter := .closed }
      | none => s1
    s2.setGroup g { s2.group g with
      inFlight := some { cue := f.id, incoming := f.chain, input := i, outgoing := out } }

/-- Write the commanded part for a firing (R42, R93, R96, R98, R99, R130). `lamp` says that LAMP UP is in the set. -/
def State.commandFor (s : State) (f : CueFields) (lamp : Bool) : State :=
  let c := (s.chain f.chain).commanded
  match f.kind with
  | .park => s.setCommanded f.chain { c with motion := .spoolTo f.frame, parkTarget := some f.frame }
  | .start => s.setCommanded f.chain
      { c with motion := .run (s.expectedField f.chain), lamp := if lamp then .up else c.lamp }
  | .stop => s.setCommanded f.chain { c with motion := .stop, shutter := .closed, lamp := .standby }
  | .shutter => s.setCommanded f.chain { c with shutter := if f.sense == some .closing then .closed else .opened }
  | .changeover => s.commandChangeover f
  | .mark => s

/-- Queue the set of a firing: a RUN joins its START's waiting lamp-up set, any other set goes to the tail (R89). -/
def State.queueActions (s : State) (c : Cue) : State :=
  if c.fields.kind == .start && s.setWaits c.fields.id then s.joinSet c.fields.id (s.actionsOf c)
  else s.queueSet { cue := c.fields.id, telegrams := s.actionsOf c }

/-- The cue fires in the field count in force (R88). The effect field is g + 2; a START keeps its expected at-speed field. -/
def State.fireCue (s : State) (c : Cue) : Effect :=
  let g := s.fieldCount
  let lamp := c.fields.kind == .start && 0 < (s.chain c.fields.chain).config.lampLead && !c.runtime.lampSent
  let r' := { c.runtime.firedAt g with
    state := .fired, effectField := some (g + 2), confirmCount := 0, lampSent := c.runtime.lampSent || lamp,
    expected := if c.fields.kind == .start then some (s.expectedField c.fields.chain) else none }
  let s1 := s.setRuntime c.fields.id r'
  let s2 := if r'.late then s1.raiseLate c else s1
  let s3 := (s2.queueActions c).commandFor c.fields lamp
  let s4 := if c.fields.snapshot && s3.snaps.settings.cue then s3.requestSnapshot .cue (some c.fields.id) else s3
  s4.settleChange c r'

/-- The firing decision of an ARMED or WITHHELD cue (R83). -/
def State.decideCue (s : State) (c : Cue) : Effect :=
  match s.verdict c with
  | .withheld reason => s.withholdCue c reason
  | .completes => s.doneAtOnce c false
  | .passes =>
    if s.cues.rehearse then s.doneAtOnce c true
    else if c.fields.kind == .mark then s.doneAtOnce c false
    else s.fireCue c

/-- A cue found due with the given due field goes to its firing decision (R51, R55, R78). -/
def State.dueCue (s : State) (c : Cue) (due : Field) : Effect :=
  let c' := { c with runtime := { c.runtime with dueField := some due } }
  (s.setRuntime c.fields.id c'.runtime).decideCue c'

/-! ### Evaluation (sections 3.3 and 5.6) -/

/-- Queue the lamp-up of an ARMED START as a set of its own (R54, R95). -/
def State.lampUp (s : State) (c : Cue) : State :=
  let n := c.fields.chain
  let s1 := s.setRuntime c.fields.id { c.runtime with lampSent := true }
  let s2 := s1.queueSet { cue := c.fields.id, telegrams := [cueAction n kindLampUp c.fields.id] }
  s2.setCommanded n { (s2.chain n).commanded with lamp := .up }

/-- Whether an ARMED START's lamp-up is due, `slack` being the fields from the update field to now (R54, R103). -/
def State.lampUpDue (s : State) (c : Cue) (due slack : Int) : Bool :=
  let lead := (s.chain c.fields.chain).config.lampLead
  c.fields.kind == .start && 0 < lead && !c.runtime.lampSent && !s.cues.rehearse && decide (due - lead ≤ slack)

/-- Evaluate an ARMED frame-timed cue on its reference chain's record (R50, R51, R53, R54). The cue is due when D is at most
the fields from the update field u to the field count in force, compared exactly (log 7). -/
def State.evaluateCue (s : State) (c : Cue) : Effect :=
  let ref := s.chain c.fields.referenceChain
  match s.cues.updateField[c.fields.referenceChain] with
  | none => s.quiet
  | some u =>
    if ref.state == .atSpeed && !ref.stale then
      let d := s.dueDistance c.fields
      let slack := fieldDiff s.fieldCount u
      if d ≤ slack then
        if (s.cues.limit : Int) < slack - d then
          s.failCue c { c.runtime with dueField := some (moveField u d) } .missed
        else s.dueCue c (moveField u d)
      else if s.lampUpDue c d slack then (s.lampUp c).quiet
      else s.quiet
    else s.quiet

/-! ### Arming (R72 to R74) -/

/-- What an arming hands the cue to: evaluation, an AUTO PARK's decision, or waiting (R74). -/
def State.afterArming (s : State) (c : Cue) : Effect :=
  match c.fields.release, c.fields.kind with
  | .auto, .park => s.dueCue c s.fieldCount
  | .gated, .park => s.quiet
  | .auto, _ => s.evaluateCue c
  | .gated, _ => s.evaluateCue c
  | .take, _ => s.quiet
  | .follow, _ => s.quiet

/-- Compute the eligibility of a chain: a WAITING head becomes ARMED (R72). -/
def State.computeEligible (s : State) (n : ChainNo) : Effect :=
  match headOf s.cues.live n with
  | none => s.quiet
  | some c =>
    if c.runtime.state == .waiting then
      let c' := { c with runtime := { c.runtime with state := .armed } }
      (s.setRuntime c.fields.id c'.runtime).afterArming c'
    else s.quiet

/-! ### Takes, rechecks and follow examinations -/

/-- The chosen cue acts on the take (R82). -/
def State.actOnTake (s : State) (c : Cue) : Effect :=
  match c.runtime.state with
  | .armed =>
    if c.fields.release == .take || c.fields.kind == .park then s.dueCue c s.fieldCount else s.evaluateCue c
  | .withheld => s.decideCue c
  | .waiting | .fired | .done | .failed | .abandoned => s.quiet

/-- A recheck at field close (R87): a failing one raises the withhold count and fails the cue at the limit (R91). -/
def State.recheckCue (s : State) (c : Cue) : Effect :=
  match s.verdict c with
  | .withheld reason =>
    let r := { c.runtime with reason := reason, withholdCount := c.runtime.withholdCount + 1 }
    if s.cues.limit ≤ r.withholdCount then s.failCue c r .withheldTooLong
    else (s.setRuntime c.fields.id r).quiet
  | .completes => s.decideCue c
  | .passes => s.decideCue c

/-- The fired field of the cue that a cue follows. -/
def State.followedField (s : State) (c : Cue) : Option Field :=
  match c.fields.follow with
  | none => none
  | some id => (s.liveCue id).bind (fun d => d.runtime.firedField)

/-- The follow examination of an ARMED FOLLOW cue at the field close of field f (R56). -/
def State.followCue (s : State) (c : Cue) (f : Field) : Effect :=
  match s.followedField c with
  | none => s.quiet
  | some fired =>
    if (c.fields.offset : Int) ≤ ((f - fired).toNat : Int) then
      let due := moveField fired c.fields.offset
      if (s.cues.limit : Int) < fieldDiff f due then
        s.failCue c { c.runtime with dueField := some due } .missed
      else s.dueCue c due
    else s.quiet

/-! ### Confirmation (section 5.6) -/

/-- Whether an arrival of field f judges a cue with this effect field (R92). -/
def judges (effect : Option Field) (f : Field) : Bool :=
  match effect with
  | some e => notEarlier f e
  | none => false

/-- An arrival judges a FIRED PARK, STOP or SHUTTER (R94, R98, R99). -/
def State.judgeByArrival (s : State) (c : Cue) (f : Field) : Effect :=
  let v := (s.chain c.fields.chain).reported
  if judges c.runtime.effectField f then
    match c.fields.kind with
    | .park =>
      match v.motor with
      | .spooling => s.quiet
      | .off => if v.frame = c.fields.frame then s.confirmCue c else s.failCue c c.runtime .contradicted
      | .runUp => s.failCue c c.runtime .contradicted
      | .atSpeed => s.failCue c c.runtime .contradicted
      | .runningDown => s.failCue c c.runtime .contradicted
    | .stop => if v.motor == .off then s.confirmCue c else s.quiet
    | .shutter => if v.dowser == (c.fields.sense != some .closing) then s.confirmCue c else s.quiet
    | .start => s.quiet
    | .changeover => s.quiet
    | .mark => s.quiet
  else s.quiet

/-- An entry of its chain judges a FIRED START (R97). -/
def State.judgeByEntry (s : State) (c : Cue) (entered : ChainState) (arrival : Option Field) : Effect :=
  match entered with
  | .atSpeed => s.confirmCue c
  | .idle | .cued | .spooling | .runDown =>
    match arrival with
    | some f => if judges c.runtime.effectField f then s.failCue c c.runtime .contradicted else s.quiet
    | none => s.quiet
  | .runUp | .absent | .faulted => s.quiet

/-- The limit of a kind's confirm count; a START has a deadline field instead (R92, R134). -/
def State.confirmLimit (s : State) (f : CueFields) : Option Nat :=
  match f.kind with
  | .park => some (s.chain f.chain).config.spoolLimit
  | .stop => some 250
  | .shutter => some 3
  | .changeover => some 3
  | .start => none
  | .mark => none

/-- A START's deadline field E + 25 has come at the field close of field f (R57, R97). -/
def CueRuntime.deadlinePassed (r : CueRuntime) (f : Field) : Bool :=
  match r.expected with
  | some e => notEarlier f (e + 25)
  | none => false

/-- The field close of field f counts the confirmation of a FIRED cue and judges its limit or deadline (R92, R97). -/
def State.countConfirm (s : State) (c : Cue) (f : Field) : Effect :=
  match s.confirmLimit c.fields with
  | some limit =>
    if judges c.runtime.effectField f then
      let r := { c.runtime with confirmCount := min 30000 (c.runtime.confirmCount + 1) }
      if limit ≤ r.confirmCount then s.failCue c r .confirmTimeout else (s.setRuntime c.fields.id r).quiet
    else s.quiet
  | none => if c.runtime.deadlinePassed f then s.failCue c c.runtime .confirmTimeout else s.quiet

/-! ### One task -/

/-- Carry out one task on a LIVE cue in one of the given states; on any other there is nothing to do. -/
def State.onCue (s : State) (id : CueId) (states : List CueState) (act : Cue → Effect) : Effect :=
  match s.liveCue id with
  | none => s.quiet
  | some c => if states.contains c.runtime.state then act c else s.quiet

/-- Carry out one task. -/
def State.runTask (s : State) : Task → Effect
  | .eligible n => s.computeEligible n
  | .abandonFollower id => s.onCue id [.waiting, .armed, .withheld] s.abandonCue
  | .abandonStopped id => s.onCue id [.armed, .withheld, .fired] s.abandonCue
  | .abandonNamed id => s.onCue id [.waiting, .armed, .withheld, .fired] s.abandonCue
  | .evaluate id => s.onCue id [.armed] (fun c => if c.fields.frameTimed then s.evaluateCue c else s.quiet)
  | .taken id => s.onCue id [.armed, .withheld] s.actOnTake
  | .recheck id => s.onCue id [.withheld] s.recheckCue
  | .follow id f => s.onCue id [.armed] (fun c => if c.fields.release == .follow then s.followCue c f else s.quiet)
  | .fail id cause => s.onCue id [.fired] (fun c => s.failCue c c.runtime cause)
  | .confirm id => s.onCue id [.fired] s.confirmCue
  | .judgeArrival id f => s.onCue id [.fired] (fun c => s.judgeByArrival c f)
  | .judgeEntry id entered arrival =>
      s.onCue id [.fired] (fun c => if c.fields.kind == .start then s.judgeByEntry c entered arrival else s.quiet)
  | .countConfirm id f => s.onCue id [.fired] (fun c => s.countConfirm c f)

end Sys2Proof.Machine
end

