-- ==== Sys2Proof/Machine/Agenda.lean ====
section
/-! DEFINITION. The cue engine's handling of one event: its tasks carried out one inside another (R73, R77), and the events
that reach it from the other blocks. -/

namespace Sys2Proof.Machine

/-! ### Carrying the tasks out -/

/-- How many state changes a cue can still make on its way to being finished. -/
def CueState.rank : CueState → Nat
  | .waiting => 4
  | .armed => 3
  | .withheld => 2
  | .fired => 1
  | .done | .failed | .abandoned => 0

/-- How many state changes the LIVE bank can still make. -/
def bankRank (live : List Cue) : Nat := (live.map (fun c => c.runtime.state.rank)).sum

/-- How many state changes the whole engine can still make: a pending swap brings the PRESET bank's cues in as WAITING. -/
def CueEngine.rank (e : CueEngine) : Nat :=
  bankRank e.live + if e.swapPending then 4 * e.preset.length + 1 else 0

/-- More tasks than one state change ever brings. -/
def CueEngine.width (e : CueEngine) : Nat := e.live.length + e.preset.length + 10

/-- Enough steps for a list of tasks: each state change uses up rank and brings fewer tasks than the width (log 36). -/
def CueEngine.fuel (e : CueEngine) (tasks : List Task) : Nat := e.width * e.rank + tasks.length + 1

/-- Carry tasks out in order, what a task brings before what stands behind it; a swap drops what was left over (R70). The
second component is what was left undone. -/
def runTasks : Nat → State → List Task → State × List Task
  | 0, s, tasks => (s, tasks)
  | _ + 1, s, [] => (s, [])
  | fuel + 1, s, t :: rest =>
    let e := s.runTask t
    runTasks fuel e.state (e.tasks ++ if e.swapped then [] else rest)

/-- Carry all tasks out. -/
def State.carryOut (s : State) (tasks : List Task) : State := (runTasks (s.cues.fuel tasks) s tasks).1

/-! ### Lists of cues a rule goes through, in LIVE list order -/

/-- The ids of the LIVE cues with a property, in list order. -/
def State.liveIds (s : State) (p : Cue → Bool) : List CueId := (s.cues.live.filter p).map (fun c => c.fields.id)

/-- The FIRED LIVE cues of a chain, in list order: the order of R101 for their failing, and, where several are judged at one arrival
or state-change notice (R92, R97), the model's choice (log 52). -/
def State.firedOf (s : State) (n : ChainNo) : List CueId :=
  s.liveIds (fun c => c.runtime.state == .fired && c.fields.chain == n)

/-! ### Notices from the chain tracker -/

/-- Record the update field of a chain (R45). -/
def State.recordUpdate (s : State) (n : ChainNo) (u : Field) : State :=
  { s with cues := { s.cues with updateField := s.cues.updateField.set n (some u) } }

/-- An update notice of chain n for field u: the cues it is reference of are evaluated, then, for a report, the
confirmations that watch the chain are judged (R40, R50, R92; which comes first is the model's choice, log 41, and so is the LIVE
list order of the judging, log 52). -/
def State.updateNotice (s : State) (n : ChainNo) (u : Field) (report : Bool) : State :=
  let s1 := s.recordUpdate n u
  let due := s1.liveIds (fun c => c.runtime.state == .armed && c.fields.frameTimed && c.fields.referenceChain == n)
  let s2 := s1.carryOut (due.map .evaluate)
  if report then s2.carryOut ((s2.firedOf n).map (fun id => .judgeArrival id u)) else s2

/-- A state-change notice to the cue engine: FIRED STARTs of the chain are judged (R41, R97), in LIVE list order, which is the model's
choice (log 52). -/
def State.entryNotice (s : State) (n : ChainNo) (entered : ChainState) (arrival : Option Field) : State :=
  s.carryOut ((s.firedOf n).map (fun id => .judgeEntry id entered arrival))

/-- The FIRED cues of a chain fail, in list order, when it faults, is lost or is disabled (R101). -/
def State.failFired (s : State) (n : ChainNo) (cause : FailureCause) : State :=
  s.carryOut ((s.firedOf n).map (fun id => .fail id cause))

/-! ### Notices from the round master -/

/-- A deferral of a cue's set: late flag, shortfall, a FIRED cue's effect field, CUE LATE (R14, R89, R117). -/
def State.deferCue (s : State) (id : CueId) : State :=
  match s.liveCue id with
  | none => s
  | some c =>
    let r := { c.runtime with
      late := true
      shortfall := min 255 (c.runtime.shortfall + 1)
      effectField := if c.runtime.state == .fired then c.runtime.effectField.map (· + 1) else c.runtime.effectField }
    (s.setRuntime id r).raiseLate c

/-- The chain or the group a loop address stands for, in a detail (R102, R159). -/
def addressee (d : Station) : Option ChainNo × Option GroupId :=
  if d = 9 then (none, some .a)
  else if d = 10 then (none, some .b)
  else if h : 1 ≤ d.toNat ∧ d.toNat ≤ 8 then (some ⟨d.toNat - 1, by omega⟩, none)
  else (none, none)

/-- An action returned undelivered: ACTION UNDELIVERED is raised, and a FIRED cue fails (R102). -/
def State.undelivered (s : State) (id : CueId) (dest : Station) : State :=
  let who := addressee dest
  let s1 := s.raise srcActionUndelivered { chain := who.1, group := who.2, cue := some id, field := s.fieldCount }
  s1.carryOut [.fail id .undelivered]

/-! ### Takes -/

/-- A candidate for the take (R81). -/
def Cue.wantsTake (c : Cue) : Bool :=
  (c.runtime.state == .armed || c.runtime.state == .withheld)
    && (c.fields.release == .take || c.fields.release == .gated) && !c.runtime.takeGiven

/-- The cue a take would be given to: the earliest candidate in LIVE list order (R81). -/
def State.takeCandidate (s : State) : Option Cue := s.cues.live.find? Cue.wantsTake

/-- A take reaches the cue engine: it is given to the candidate or discarded (R81, R82). -/
def State.giveTake (s : State) : State :=
  match s.takeCandidate with
  | none => s
  | some c => (s.setRuntime c.fields.id { c.runtime with takeGiven := true }).carryOut [.taken c.fields.id]

/-! ### Field close -/

/-- The first step of R90: the confirmation of each FIRED cue is counted, in LIVE list order (the model's choice, log 42). -/
def State.countConfirms (s : State) (f : Field) : State :=
  s.carryOut ((s.liveIds (fun c => c.runtime.state == .fired)).map (fun id => .countConfirm id f))

/-- The second step of R90: each WITHHELD cue but those in `skip` is rechecked, in LIVE list order (log 13). -/
def State.recheckHeld (s : State) (skip : List CueId) : State :=
  s.carryOut ((s.liveIds (fun c => c.runtime.state == .withheld && !skip.contains c.fields.id)).map .recheck)

/-- The first ARMED FOLLOW cue in LIVE list order that has not been examined at this close (R56). -/
def State.nextFollower (s : State) (examined : List CueId) : Option Cue :=
  s.cues.live.find? (fun c =>
    c.runtime.state == .armed && c.fields.release == .follow && !examined.contains c.fields.id)

/-- Examine the ARMED FOLLOW cues in LIVE list order, those that arm in the course of it among them (R56, R74); a swap taken
in between brings a bank none of whose cues has been examined (log 42). `fuel` bounds the number of examinations. -/
def followWalk (f : Field) : Nat → State → List CueId → State
  | 0, s, _ => s
  | fuel + 1, s, examined =>
    match s.nextFollower examined with
    | none => s
    | some c =>
      let t := s.carryOut [.follow c.fields.id f]
      followWalk f fuel t (if s.cues.swapPending && !t.cues.swapPending then [] else c.fields.id :: examined)

/-- The third step of R90: the FOLLOW examinations of the field close of field f (R56). -/
def State.examineFollowers (s : State) (f : Field) : State :=
  followWalk f (s.cues.live.length + s.cues.preset.length) s []

/-- The cue engine's own work at the field close of field f (R90): confirmations are counted, WITHHELD cues rechecked but for
those in `skip`, FOLLOW cues examined. -/
def State.cueWork (s : State) (f : Field) (skip : List CueId) : State :=
  ((s.countConfirms f).recheckHeld skip).examineFollowers f

/-! ### Swap, ALL STOP and rehearse -/

/-- SWAP with no swap pending: taken at once, or set pending (R68). -/
def State.swapBanks (s : State) : State :=
  if s.swapFree then
    let s1 := s.takeSwap
    s1.carryOut s1.eligibleAll
  else { s with cues := { s.cues with swapPending := true } }

/-- Commanded motion stop for every chain (R105). -/
def State.commandAllStop (s : State) : State :=
  { s with chains := mapTable (fun r => { r with commanded := { r.commanded with motion := .stop } }) s.chains }

/-- ALL STOP (R105). -/
def State.allStop (s : State) : State :=
  let s1 := { s with round := { s.round with allStop := true } }
  let s2 := s1.commandAllStop.withdrawAllSets
  s2.carryOut ((s2.liveIds (fun c =>
    c.runtime.state == .armed || c.runtime.state == .withheld || c.runtime.state == .fired)).map .abandonStopped)

/-- SET REHEARSE to set: the waiting sets are withdrawn and their FIRED cues fail (R104). -/
def State.startRehearse (s : State) : State :=
  let cut := s.liveIds (fun c => c.runtime.state == .fired && s.setWaits c.fields.id)
  let s1 := { s with cues := { s.cues with rehearse := true } }
  s1.withdrawAllSets.carryOut (cut.map (fun id => .fail id .undelivered))

/-- SET REHEARSE (R103, R104); a value that leaves the flag as it stands changes nothing. -/
def State.setRehearse (s : State) (value : Bool) : State :=
  if value == s.cues.rehearse then s
  else if value then s.startRehearse
  else { s with cues := { s.cues with rehearse := false } }

end Sys2Proof.Machine
end

