-- ==== Sys2Proof/Machine/Groups.lean ====
section
/-! DEFINITION. The group logic (Chapter 7): the air holder, air faults, and the multiplexer's reports. -/

namespace Sys2Proof.Machine

/-! ### The air fault (section 7.5) -/

/-- Whether a cause is in the set of causes raised (R135). -/
def AirCauses.has (a : AirCauses) : Cause → Bool
  | .faulted => a.faulted
  | .speed => a.speed
  | .silent => a.silent
  | .runOut => a.runOut
  | _ => false

/-- Add a cause to the set (R135). -/
def AirCauses.add (a : AirCauses) : Cause → AirCauses
  | .faulted => { a with faulted := true }
  | .speed => { a with speed := true }
  | .silent => { a with silent := true }
  | .runOut => { a with runOut := true }
  | _ => a

/-- An air fault of a cause, raised once in a tenure (R135, R140). -/
def State.airFault (s : State) (g : GroupId) (n : ChainNo) (cause : Cause) : State :=
  if (s.group g).causes.has cause then s
  else
    (s.setGroup g { s.group g with causes := (s.group g).causes.add cause }).raise srcAirFault
      { chain := some n, group := some g, cause := cause, field := s.fieldCount }

/-- Whether commanded motion is run. -/
def Motion.isRun : Motion → Bool
  | .run _ => true
  | .none => false
  | .spoolTo _ => false
  | .stop => false

/-- Cause SPEED: the motor is not at speed while the commanded motion is run (R138). -/
def State.speedFault (s : State) (n : ChainNo) : Bool :=
  (s.chain n).reported.motor != .atSpeed && (s.chain n).commanded.motion.isRun

/-- Cause RUN-OUT: a run-out frame above 0 is reached (R139). -/
def State.runOutFault (s : State) (n : ChainNo) : Bool :=
  let r := s.chain n
  r.config.runOut != 0 && decide (r.config.runOut.toNat ≤ r.reported.frame.toNat)

/-- SPEED, then RUN-OUT, judged on the air holder's record as it stands (R138, R139; the order is the model's choice, log 43). -/
def State.judgeAir (s : State) (g : GroupId) (n : ChainNo) : State :=
  let s1 := if s.speedFault n then s.airFault g n .speed else s
  if s1.runOutFault n then s1.airFault g n .runOut else s1

/-- The group whose air holder a chain is. -/
def State.airGroup (s : State) (n : ChainNo) : Option GroupId :=
  if s.groupA.holder == some n then some .a else if s.groupB.holder == some n then some .b else none

/-- An update notice to the group logic (R40, R138, R139). -/
def State.groupUpdate (s : State) (n : ChainNo) : State :=
  match s.airGroup n with
  | some g => s.judgeAir g n
  | none => s

/-- The entry of a chain into FAULTED, or its becoming stale, handed to the group logic (R137). -/
def State.groupTrouble (s : State) (n : ChainNo) (cause : Cause) : State :=
  match s.airGroup n with
  | some g => s.airFault g n cause
  | none => s

/-! ### The air holder and its tenure (R128, R135, R136) -/

/-- The chain mapped to a selected input, or none when the input is absent, 0 or unmapped. -/
def GroupRecord.shown (r : GroupRecord) : Option ChainNo :=
  match r.selected with
  | none => none
  | some i => if h : i.val = 0 then none else r.map[(⟨i.val - 1, by omega⟩ : Fin 4)]

/-- The air holder that R128 derives: the chain shown, unless it is ABSENT. -/
def State.derivedHolder (s : State) (g : GroupId) : Option ChainNo :=
  match (s.group g).shown with
  | none => none
  | some n => if (s.chain n).state == .absent then none else some n

/-- A tenure begins: FAULTED and SILENT are judged at once, SPEED and RUN-OUT when the chain's last update is of the field
count in force (R136; in this order, the model's choice, log 43). -/
def State.beginTenure (s : State) (g : GroupId) (n : ChainNo) : State :=
  let s1 := if (s.chain n).state == .faulted then s.airFault g n .faulted else s
  let s2 := if (s1.chain n).stale then s1.airFault g n .silent else s1
  if s2.cues.updateField[n] == some s2.fieldCount then s2.judgeAir g n else s2

/-- Derive the air holder of a group afresh; a change ends the tenure, and a new holder begins one (R128, R135, R136). -/
def State.deriveHolder (s : State) (g : GroupId) : State :=
  let holder := s.derivedHolder g
  if holder = (s.group g).holder then s
  else
    let s1 := s.setGroup g { s.group g with holder := holder, causes := {} }
    match holder with
    | some n => s1.beginTenure g n
    | none => s1

/-- A state-change notice to the group logic: into or out of ABSENT, for a chain mapped in a group (R128). -/
def State.groupEntry (s : State) (n : ChainNo) (left entered : ChainState) : State :=
  if left == .absent || entered == .absent then
    match s.groupOf n with
    | some (g, _) => s.deriveHolder g
    | none => s
  else s

/-! ### The multiplexer's report (section 7.2) -/

/-- Step 2 of an arrival: judge the fault flag against the one kept aside (R133). -/
def State.judgeMuxFault (s : State) (g : GroupId) (previous : Bool) : State :=
  let r := s.group g
  if !r.fault then s
  else
    match r.inFlight with
    | some x => s.carryOut [.fail x.cue .muxFault]
    | none =>
      if previous then s
      else s.raise srcChangeoverFailed { group := some g, cause := .muxFault, field := s.fieldCount }

/-- Whether the changeover in flight is judged by a report of the field in force (R132). -/
def State.flightJudged (s : State) (x : InFlight) : Bool :=
  match s.liveCue x.cue with
  | some c => c.runtime.state == .fired && judges c.runtime.effectField s.fieldCount
  | none => false

/-- Step 3 of an arrival: judge the changeover in flight by what the report shows (R132). -/
def State.judgeFlight (s : State) (g : GroupId) : State :=
  match (s.group g).inFlight with
  | none => s
  | some x =>
    if s.flightJudged x then
      if (s.group g).shown = some x.incoming then s.carryOut [.confirm x.cue]
      else if (s.group g).shown = x.outgoing then s
      else s.carryOut [.fail x.cue .contradicted]
    else s

/-- A MUX REPORT handed to the group logic (R127); a malformed one is discarded. -/
def State.muxArrival (s : State) (g : GroupId) (payload : List Byte) : State :=
  match decodeMuxReport payload with
  | none => s
  | some (input, fault) =>
    let previous := (s.group g).fault
    let s1 := s.setGroup g { s.group g with selected := some input, fault := fault }
    ((s1.judgeMuxFault g previous).judgeFlight g).deriveHolder g

end Sys2Proof.Machine
end

