-- ==== Sys2Proof/Machine/Chains.lean ====
section
/-! DEFINITION. The chain tracker (Chapter 2): arrivals, derivation, the cadence check, settling at field close. -/

namespace Sys2Proof.Machine

/-! ### Deriving the state (sections 2.3 and 2.4) -/

/-- The fault condition of a valid report and its cause, or none (R27). -/
def Reported.fault (v : Reported) : FaultCause :=
  if v.brk then .brk
  else if v.gate then .gate
  else if v.lamp == .failed && (v.motor == .atSpeed || v.motor == .runUp) then .lamp
  else .none

/-- The state that the motor value decides (R28). -/
def stateByMotor (v : Reported) (parkTarget : Option Frame) : ChainState :=
  match v.motor with
  | .spooling => .spooling
  | .runUp => .runUp
  | .atSpeed => .atSpeed
  | .runningDown => .runDown
  | .off => if parkTarget == some v.frame then .cued else .idle

/-- AT-SPEED taken without a check: the position is the new reference (R35). -/
def ChainRecord.atSpeedUnchecked (r : ChainRecord) : ChainRecord :=
  { r with state := .atSpeed, slipCount := 0, referenceDropped := false }

/-- The record FAULTED with a cause; its slip count is 0 (R27, R29, R34, log 14). -/
def ChainRecord.asFaulted (r : ChainRecord) (cause : FaultCause) : ChainRecord :=
  { r with state := .faulted, faultCause := cause, slipCount := 0 }

/-- The cadence check of an AT-SPEED arrival (R34): `before` is the record before the report, `r` the one that holds it. -/
def cadenceCheck (before r : ChainRecord) (masked : Bool) : ChainRecord :=
  let expected := successor r.config.cadence before.reported.frame before.reported.phase
  if (r.reported.frame, r.reported.phase) = expected then { r with state := .atSpeed, slipCount := 0 }
  else if masked then { r with state := .atSpeed }
  else if before.slipCount = 0 then { r with state := .atSpeed, slipCount := 1 }
  else r.asFaulted .cadence

/-- Derive the state of a record that has just stored a report: R32 for an ABSENT chain, R29 for a FAULTED one, R27, R28,
R34 and R35 otherwise. -/
def deriveArrival (before r : ChainRecord) (masked : Bool) : ChainRecord :=
  if before.state == .faulted then r
  else if r.reported.fault != .none then r.asFaulted r.reported.fault
  else
    match stateByMotor r.reported r.commanded.parkTarget with
    | .atSpeed =>
      if before.state != .atSpeed || before.stale || before.referenceDropped then r.atSpeedUnchecked
      else cadenceCheck before r masked
    | other => { r with state := other }

/-- The record after an arrival (R25): the reported values stored, flags and counts cleared, the state derived. -/
def arrivalRecord (before : ChainRecord) (v : Reported) (masked : Bool) : ChainRecord :=
  let stored := { before with
    reported := v, heard := true, coasted := false, stale := false, coastCount := 0, missingCount := 0 }
  deriveArrival before stored masked

/-! ### Handing on (section 2.6) -/

/-- The entry of a chain into FAULTED: its alarm, its FIRED cues, the air fault (R30, R101, R137). -/
def State.enterFaulted (s : State) (n : ChainNo) : State :=
  let d : Detail := { chain := some n, cause := (s.chain n).faultCause.asCause, field := s.fieldCount }
  ((s.raise (srcChainFault n) d).failFired n .chainFaulted).groupTrouble n .faulted

/-- A state-change notice to the cue engine and the group logic, at each entry (R26, R41). -/
def State.stateChange (s : State) (n : ChainNo) (left entered : ChainState) (arrival : Option Field) : State :=
  if left = entered then s else (s.entryNotice n entered arrival).groupEntry n left entered

/-- An update notice to the cue engine and the group logic (R40). -/
def State.handUpdate (s : State) (n : ChainNo) (u : Field) (report : Bool) : State :=
  (s.updateNotice n u report).groupUpdate n

/-- A valid report of an enabled chain arrives (R25): the withdrawal of CHAIN n SILENT, then the entry into FAULTED, the
update and the state change are handed on (log 10). -/
def State.arrival (s : State) (n : ChainNo) (v : Reported) : State :=
  let before := s.chain n
  let s1 := s.setChain n (arrivalRecord before v (s.cadenceMasked n v.frame))
  let entered := (s1.chain n).state
  let s2 := s1.withdraw (srcChainSilent n)
  let s3 := if before.state != .faulted && entered == .faulted then s2.enterFaulted n else s2
  (s3.handUpdate n s3.fieldCount true).stateChange n before.state entered (some s3.fieldCount)

/-- A CHAIN REPORT handed to the tracker: one of a disabled chain is ignored, a malformed one discarded (R22, R24). -/
def State.chainArrival (s : State) (n : ChainNo) (payload : List Byte) : State :=
  if (s.chain n).config.enabled then
    match validChainReport (s.chain n).config.cadence payload with
    | some v => s.arrival n v
    | none => s
  else s

/-! ### Settling at field close (section 2.5) -/

/-- What the settling of one record brings to the others' notice. -/
structure Settled where
  record : ChainRecord
  coasted : Bool := false
  stale   : Bool := false
  absent  : Bool := false

/-- The coast step of a missing record (R37). -/
def ChainRecord.coast (r : ChainRecord) : ChainRecord :=
  let p := successor r.config.cadence r.reported.frame r.reported.phase
  { r with reported := { r.reported with frame := p.1, phase := p.2 }, coasted := true, coastCount := r.coastCount + 1 }

/-- A record made ABSENT by silence (R39). -/
def ChainRecord.lost (r : ChainRecord) : ChainRecord :=
  { r with state := .absent, faultCause := .none, slipCount := 0, coastCount := 0 }

/-- Settle one record at a field close (R36 to R39, Table 2-4). -/
def settleRecord (r : ChainRecord) : Settled :=
  if !r.config.enabled || r.state == .absent then { record := r }
  else if r.heard then { record := { r with heard := false } }
  else
    let missing := min 25 (r.missingCount + 1)
    let coasts := r.state == .atSpeed && !r.stale && decide (r.coastCount < 2)
    let r1 := { (if coasts then r.coast else r) with missingCount := missing }
    let goesStale := missing == 3 && !r.stale
    let r2 := if goesStale then { r1 with stale := true } else r1
    if missing = 25 then { record := r2.lost, stale := goesStale, absent := true }
    else { record := r2, coasted := coasts && !goesStale, stale := goesStale }

/-- Hand on what the settling of chain n brought at the field close of field f: the coast step as an update (R37, R40), the
staleness (R38, R137), the loss (R39, R101, R41); that the FIRED cues of a lost chain fail before its state-change notice is the
model's choice (log 40). -/
def State.handSettled (s : State) (n : ChainNo) (f : Field) (left : ChainState) (x : Settled) : State :=
  let s1 := if x.coasted then s.handUpdate n f false else s
  let s2 := if x.stale then
      (s1.raise (srcChainSilent n) { chain := some n, field := s1.fieldCount }).groupTrouble n .silent
    else s1
  if x.absent then (s2.failFired n .chainLost).stateChange n left .absent none else s2

/-- Settle every record; the update field of each chain that took a coast step is the field that closes, from then on, so that
position and field of an update stand together (R36, R37, R45). -/
def State.settleRecords (s : State) (f : Field) : State :=
  { s with
    chains := mapTable (fun r => (settleRecord r).record) s.chains
    cues := { s.cues with updateField := Vector.ofFn (fun n : ChainNo =>
      if (settleRecord (s.chain n)).coasted then some f else s.cues.updateField[n]) } }

/-- Settle every record, then hand on, chain by chain, what the settling brought (R36: the settling comes first; log 11). -/
def State.settleChains (s : State) (f : Field) : State :=
  allChains.foldl (fun t n => t.handSettled n f (s.chain n).state (settleRecord (s.chain n))) (s.settleRecords f)

/-- The settling of one chain taken alone (log 3). -/
def State.settleOne (s : State) (n : ChainNo) : State :=
  let x := settleRecord (s.chain n)
  (s.setChain n x.record).handSettled n s.fieldCount (s.chain n).state x

/-! ### Desk commands of the tracker -/

/-- The effects of disabling a chain (R22); that its FIRED cues fail before the state-change notice is the model's choice
(log 40). -/
def State.disableChain (s : State) (n : ChainNo) : State :=
  let r := s.chain n
  let s1 := s.setChain n { r with
    state := .absent, coasted := false, stale := false, coastCount := 0, missingCount := 0, slipCount := 0,
    faultCause := .none, heard := false }
  ((s1.withdraw (srcChainSilent n)).failFired n .chainLost).stateChange n r.state .absent none

/-- The effect of a cadence change on the record: an AT-SPEED chain's cadence reference is dropped (R23). -/
def ChainRecord.dropReference (r : ChainRecord) : ChainRecord :=
  if r.state == .atSpeed then { r with referenceDropped := true, slipCount := 0 } else r

/-- A new configuration part (R21), with the effects of a change of Enabled (R22) and of cadence (R23). -/
def State.configureChain (s : State) (n : ChainNo) (c : ChainConfig) : State :=
  let r := s.chain n
  let s1 := s.setChain n { r with config := c }
  let s2 := if r.config.enabled && !c.enabled then s1.disableChain n else s1
  if r.config.cadence = c.cadence then s2 else s2.setChain n (s2.chain n).dropReference

/-- The last report shows the chain still faulty (R31). -/
def Reported.stillFaulty (v : Reported) : Bool := v.brk || v.gate || v.lamp == .failed

/-- An accepted CLEAR FAULT of a FAULTED chain: its state is derived afresh from the last report (R31). -/
def State.clearFault (s : State) (n : ChainNo) : State :=
  let r := s.chain n
  let entered := stateByMotor r.reported r.commanded.parkTarget
  let r1 := { r with faultCause := .none, slipCount := 0, state := entered }
  let r2 := if entered == .atSpeed then r1.atSpeedUnchecked else r1
  (s.setChain n r2).stateChange n .faulted entered none

end Sys2Proof.Machine
end

