-- ==== Sys2Proof/Machine/Watches.lean ====
section
/-! DEFINITION. The watch bank (Chapter 8): one sample of a watch, its alarm, and the seen frames. -/

namespace Sys2Proof.Machine

/-- Whether a sample has a selected edge (R147). -/
def selectedEdge (setting : EdgeSetting) (previous : Option Bool) (level : Bool) : Bool :=
  match previous with
  | none => false
  | some p =>
    if p == level then false
    else match setting with
      | .rise => level
      | .fall => !level
      | .both => true

/-- The count and output after the mode has acted, and whether the count reached the limit (R148 to R152). -/
structure ModeStep where
  count   : Nat
  output  : Bool
  reached : Bool := false
deriving DecidableEq, Repr

/-- GAP: fields since the last selected edge (R148). -/
def gapStep (w : Watch) (edge : Bool) : ModeStep :=
  if edge then { count := 0, output := false }
  else
    let n := min w.limit (w.count + 1)
    { count := n, output := n == w.limit, reached := n == w.limit }

/-- Whether DELAY delays a change of the output to the given value (R149). -/
def delayed (setting : EdgeSetting) (target : Bool) : Bool :=
  match setting with
  | .rise => target
  | .fall => !target
  | .both => true

/-- DELAY: the output follows the signal late (R149). -/
def delayStep (w : Watch) (level : Bool) : ModeStep :=
  if level == w.output then { count := 0, output := w.output }
  else if !delayed w.edge level then { count := 0, output := level }
  else if w.limit ≤ w.count + 1 then { count := 0, output := level, reached := true }
  else { count := w.count + 1, output := w.output }

/-- ONESHOT: a pulse of fixed length from a selected edge (R150). -/
def oneshotStep (w : Watch) (edge : Bool) : ModeStep :=
  if w.output then
    if w.limit ≤ w.count + 1 then { count := 0, output := false, reached := true }
    else { count := w.count + 1, output := true }
  else if edge then { count := 0, output := true }
  else { count := w.count, output := false }

/-- COUNT: a one-field output at each limit-th selected edge (R151). -/
def countStep (w : Watch) (edge : Bool) : ModeStep :=
  if edge then
    if w.limit ≤ w.count + 1 then { count := 0, output := true, reached := true }
    else { count := w.count + 1, output := false }
  else { count := w.count, output := false }

/-- The mode acts on the signal and the edge (R146 step 3). -/
def modeStep (w : Watch) (level : Bool) : ModeStep :=
  let edge := selectedEdge w.edge w.previous level
  match w.mode with
  | .gap => gapStep w edge
  | .delay => delayStep w level
  | .oneshot => oneshotStep w edge
  | .count => countStep w edge
  | .edge => { count := w.count, output := edge }

/-- A watch at rest (R143). -/
def Watch.atRest (w : Watch) : Watch := { w with count := 0, output := false, previous := none }

/-- Whether a watch is qualified (R146 step 1). -/
def State.qualified (s : State) (w : Watch) : Bool :=
  match w.qualifier with
  | none => true
  | some q => s.signal w.chain q

/-- What one sample makes of an enabled watch: at rest when it is not qualified, else as its mode says (R146). -/
def State.sampledWatch (s : State) (w : Watch) : Watch :=
  if s.qualified w then
    let level := s.signal w.chain w.signal
    let m := modeStep w level
    { w with count := m.count, output := m.output, previous := some level }
  else w.atRest

/-- Whether this sample brings the count of an enabled watch to its limit and changes its output (R148 to R151). A COUNT output that
stays true at its limit is no such change, so the event taken alone has no effect then (the model's choice, log 3). -/
def State.reachesLimit (s : State) (w : Watch) : Bool :=
  w.enabled && s.qualified w
    && (modeStep w (s.signal w.chain w.signal)).reached
    && (modeStep w (s.signal w.chain w.signal)).output != w.output

/-- Replace a watch record. -/
def State.setWatch (s : State) (k : WatchNo) (w : Watch) : State :=
  { s with watches := { s.watches with watches := s.watches.watches.set k w } }

/-- Replace a watch record and raise or withdraw its alarm when the output changes (R118, R154). -/
def State.changeWatch (s : State) (k : WatchNo) (w : Watch) : State :=
  let before := s.watches.watches[k].output
  let s1 := s.setWatch k w
  if before == w.output then s1
  else if w.output then
    if s1.watchMasked w.chain then s1
    else s1.raise (srcWatch k) { chain := some w.chain, field := s1.fieldCount }
  else s1.withdraw (srcWatch k)

/-- One sample of one watch; a disabled one is not sampled (R146). -/
def State.sampleWatch (s : State) (k : WatchNo) : State :=
  let w := s.watches.watches[k]
  if w.enabled then s.changeWatch k (s.sampledWatch w) else s

/-- The seen frame of a chain after every watch has sampled (R145). -/
def State.settledSeen (s : State) (n : ChainNo) : Option Frame :=
  if s.reportPresent n then some (s.chain n).reported.frame
  else if (s.chain n).state == .absent then none
  else s.watches.seen[n]

/-- Settle the seen frames (R145). -/
def State.settleSeen (s : State) : State :=
  allChains.foldl (fun (t : State) (n : ChainNo) =>
    { t with watches := { t.watches with seen := t.watches.seen.set n (s.settledSeen n) } }) s

/-- The watch bank's work at a field close: every watch in number order, then the seen frames (R146). -/
def State.watchWork (s : State) : State := (allWatches.foldl State.sampleWatch s).settleSeen

/-- An accepted SET WATCH: the new configuration at rest, and WATCH n withdrawn if the output was true (R155). -/
def State.configureWatch (s : State) (k : WatchNo) (w : Watch) : State := s.changeWatch k w.atRest

/-- Every watch at rest with its configuration, the seen frames absent (R156). -/
def WatchBank.cleared (b : WatchBank) : WatchBank :=
  { watches := mapTable Watch.atRest b.watches, seen := Vector.replicate 8 none }

end Sys2Proof.Machine
end

