-- ==== Sys2Proof/Machine/Rounds.lean ====
section
/-! DEFINITION. The round master (Chapter 1): field close, fixing and launching a round, sync and flywheel. -/

namespace Sys2Proof.Machine

/-! ### The shifter (R1) -/

/-- The sample periods of one character: eleven bits of sixteen samples (R1, R2). -/
def charSamples : Nat := 176

/-- The characters left after so many samples, counted from the start of the first character. -/
def shiftOut : List (List Byte) → Nat → Shifter
  | [], _ => {}
  | r :: rest, n =>
    if charSamples * r.length ≤ n then shiftOut rest (n - charSamples * r.length)
    else { rounds := r.drop (n / charSamples) :: rest, position := n % charSamples }

/-- Sample periods pass: the clock runs on and the shifter sends (R1, log 1); while a command's time passes nothing is sampled
(log 39). -/
def State.elapse (s : State) (n : Nat) : State :=
  { s with
    now := s.now + n
    port := { s.port with shifter := shiftOut s.port.shifter.rounds (s.port.shifter.position + n) } }

/-- The sample periods until the last character of the round being sent is out (R1). -/
def Shifter.roundLeft (h : Shifter) : Nat :=
  match h.rounds with
  | [] => 0
  | r :: _ => charSamples * r.length - h.position

/-- Bit i of a character on the line: start, eight data bits, odd parity, stop (R1); `true` is mark. -/
def lineBit (b : Byte) (i : Nat) : Bool :=
  if i = 0 then false
  else if i ≤ 8 then b.getLsbD (i - 1)
  else if i = 9 then
    !(b.getLsbD 0 ^^ b.getLsbD 1 ^^ b.getLsbD 2 ^^ b.getLsbD 3 ^^ b.getLsbD 4 ^^ b.getLsbD 5 ^^ b.getLsbD 6 ^^ b.getLsbD 7)
  else true

/-- The level of LTX: the bit being sent, or mark between rounds (R1). -/
def Shifter.ltx (h : Shifter) : Bool :=
  match h.rounds with
  | (b :: _) :: _ => lineBit b (h.position / 16)
  | _ => true

/-! ### Line sampling (section 6.3) -/

/-- The two-sample rule of a line filter (R119). -/
def LineFilter.sample (l : LineFilter) (c : Contact) : LineFilter :=
  { last := some c, accepted := if l.last = some c then some c else l.accepted }

/-- The TAKE and HOLD contacts are sampled; TAKE going from open to closed is a take (R119, R120). -/
def State.sampleLines (s : State) : State :=
  { s with
    take := s.take.sample (levelContact s.pins.take)
    hold := s.hold.sample (levelContact s.pins.hold) }

/-- Whether this sampling makes a take from the line (R120). -/
def State.lineTake (s : State) : Bool :=
  s.take.accepted == some .opened && (s.take.sample (levelContact s.pins.take)).accepted == some .closed

/-- The line sampling of a field close, with the take it may hand on (R119, R120). -/
def State.lineWork (s : State) : State := if s.lineTake then s.sampleLines.giveTake else s.sampleLines

/-! ### Field close (section 1.7) -/

/-- The works of a field close among which either may come first (R82, R112, R122, R123). -/
inductive CloseWork where
  | cues | lines | watches
deriving DecidableEq, Repr

/-- The six orders they can take; the first is the one used when all agree. -/
def closeOrders : List (List CloseWork) :=
  [[.cues, .lines, .watches], [.lines, .cues, .watches], [.cues, .watches, .lines],
   [.lines, .watches, .cues], [.watches, .cues, .lines], [.watches, .lines, .cues]]

/-- The LIVE cues that are WITHHELD now and were not before: with a swap in between, all of them (R90). -/
def newlyWithheld (before after : State) : List CueId :=
  let held (s : State) : List CueId := s.liveIds (fun c => c.runtime.state == .withheld)
  if before.cues.swapPending && !after.cues.swapPending then held after
  else (held after).filter (fun id => !(held before).contains id)

/-- Carry the works out in an order at the field close of field f. A cue that the line's take makes WITHHELD is first rechecked
at the next field close (R90). -/
def runClose (f : Field) : List CloseWork → State → List CueId → State
  | [], s, _ => s
  | .cues :: rest, s, skip => runClose f rest (s.cueWork f skip) skip
  | .watches :: rest, s, skip => runClose f rest s.watchWork skip
  | .lines :: rest, s, skip => runClose f rest s.lineWork (skip ++ newlyWithheld s s.lineWork)

/-- The works in an order that is free where it matters: when all six orders agree there is one outcome, else a free value
chooses (log 4). -/
def State.closeWorks (s : State) (f : Field) : State :=
  let first := runClose f [.cues, .lines, .watches] s []
  if closeOrders.all (fun o => runClose f o s [] == first) then first
  else
    let order := closeOrders.getD (Config.closeOrder s.choices % 6) [.cues, .lines, .watches]
    runClose f order { s with choices := s.choices + 1 } []

/-- The broken count reaches 3: LOOP LOSS (R18). -/
def State.declareLoopLoss (s : State) : State :=
  { s with round := { s.round with broken := 3 } }.raise srcLoopLoss s.bareDetail

/-- The broken count at a field close (R18). -/
def State.countBroken (s : State) (complete : Bool) : State :=
  if complete then
    State.withdraw { s with round := { s.round with broken := 0 } } srcLoopLoss
  else if s.round.broken = 2 then s.declareLoopLoss
  else { s with round := { s.round with broken := min 3 (s.round.broken + 1) } }

/-- The field close of field f (R17): the tracker's settling first (R36), then the broken count, the works, the dwell
counter (log 17). -/
def State.fieldClose (s : State) (f : Field) (complete : Bool) : State :=
  (((s.settleChains f).countBroken complete).closeWorks f).dwellWork

/-! ### Fixing (R13) -/

/-- Take items from the oldest while each fits; at the first that does not, it and those behind it wait (R13). -/
def takeFitting {α : Type} (size : α → Nat) : List α → Nat → List α × List α × Nat
  | [], space => ([], [], space)
  | a :: rest, space =>
    if size a ≤ space then
      let t := takeFitting size rest (space - size a)
      (a :: t.1, t.2.1, t.2.2)
    else ([], a :: rest, space)

/-- The characters of a set (R13). -/
def ActionSet.chars (a : ActionSet) : Nat := (a.telegrams.map telegramChars).sum

/-- What a fixing places and leaves (R13). -/
structure Fixed where
  telegrams : List Telegram
  placed    : List Placed
  waiting   : List ActionSet
  notices   : List Notice
  replies   : List Reply
  buffer    : SnapshotBuffer

/-- One request to the snapshot buffer: the telegram, the buffer after, the space left (R13, R184). -/
def requestData (b : SnapshotBuffer) (space : Nat) : List Telegram × SnapshotBuffer × Nat :=
  match b.build space with
  | none => ([], b, space)
  | some x => ([x.telegram], x.buffer, space - telegramChars x.telegram)

/-- Classes 2 to 6 in order with the 115 characters that FIELD HEAD and ROUND END leave (R13). -/
def State.fix (s : State) : Fixed :=
  let stop := if s.round.allStop then [allStopTelegram] else []
  let c3 := takeFitting ActionSet.chars s.round.sets (115 - (stop.map telegramChars).sum)
  let c4 := takeFitting (fun n => telegramChars (noticeTelegram n)) s.round.notices c3.2.2
  let c5 := takeFitting (fun r => telegramChars (replyTelegram r)) s.round.replies c4.2.2
  let d1 := requestData s.snaps c5.2.2
  let d2 := if d1.1.isEmpty || 0 = d1.2.2 then ([], d1.2.1, d1.2.2) else requestData d1.2.1 d1.2.2
  { telegrams := stop ++ c3.1.flatMap ActionSet.telegrams ++ c4.1.map noticeTelegram ++ c5.1.map replyTelegram
      ++ d1.1 ++ d2.1
    placed := c3.1.flatMap (fun a => a.telegrams.map (fun t => { telegram := t, cue := a.cue }))
    waiting := c3.2.1
    notices := c4.2.1
    replies := c5.2.1
    buffer := d2.2.1 }

/-! ### Launch (R11) -/

/-- The telegrams of the round launched next, in sending order (R11). -/
def State.roundTelegrams (s : State) : List Telegram :=
  fieldHeadTelegram (s.fieldCount + 1) s.cues.rehearse s.alarms.alm s.cues.swapPending
    :: s.fix.telegrams ++ [roundEndTelegram (s.fieldCount + 1)]

/-- The round is fixed and handed to the shifter, and the field count advances (R10, R11, R12, R16). -/
def State.fixRound (s : State) : State :=
  let x := s.fix
  { s with
    round := { s.round with
      fieldCount := s.fieldCount + 1, lastLaunch := some s.now, phase := .awaited, placed := x.placed, allStop := false,
      sets := x.waiting, notices := x.notices, replies := x.replies }
    port := { s.port with shifter := { s.port.shifter with
      rounds := s.port.shifter.rounds ++ [s.roundTelegrams.flatMap telegramBytes] } }
    snaps := x.buffer }

/-- Whether the round before has not completed (R17). -/
def RoundPhase.unfinished : RoundPhase → Bool
  | .awaited | .windowOpen => true
  | .noRound | .complete => false

/-- What a fixing leaves to be told: removals from the store are judged (R182), each set left waiting is deferred (R14). -/
def State.reportFixing (s : State) : State :=
  (s.round.sets.map ActionSet.cue).foldl State.deferCue s.judgeAlmostFull

/-- A launch (R11): the round is fixed, the deferrals are reported, and a round before that has not completed is broken and its
field closes (R17). -/
def State.launch (s : State) : State :=
  let s1 := s.fixRound.reportFixing
  if s.round.phase.unfinished then s1.fieldClose s.fieldCount false else s1

/-! ### Field sync and the flywheel (section 1.4) -/

/-- The longest interval the round master can learn (section 1.4). -/
def longestInterval : Nat := 1048575

/-- The spacing from the reference sync to now, if it can be an interval (R7). -/
def State.spacing (s : State) : Option Nat :=
  match s.round.reference with
  | none => none
  | some r => if 1 ≤ s.now - r ∧ s.now - r ≤ longestInterval then some (s.now - r) else none

/-- Whether LOCKED ignores an arrival now: less than three-quarters of the kept interval after the last launch (R7). -/
def State.syncIgnored (s : State) : Bool :=
  match s.round.sync, s.round.keptInterval, s.round.lastLaunch with
  | .locked, some i, some l => decide (4 * (s.now - l) < 3 * i)
  | _, _, _ => false

/-- The sync state and kept interval after an accepted sync (R7). -/
def State.syncAccepted (s : State) : SyncState × Option Nat :=
  match s.round.sync with
  | .unlocked => (.learning, s.round.keptInterval)
  | .lost => (.learning, s.round.keptInterval)
  | .learning => match s.spacing with
      | some i => (.locked, some i)
      | none => (.learning, s.round.keptInterval)
  | .locked => (.locked, match s.spacing with
      | some i => some i
      | none => s.round.keptInterval)

/-- The round master's own state after an accepted sync: the reference is now, the flywheel count 0 (R7, log 8). -/
def State.noteSync (s : State) : State :=
  { s with round := { s.round with
      sync := s.syncAccepted.1, keptInterval := s.syncAccepted.2, reference := some s.now, flywheel := 0 } }

/-- A field sync arrives (R7): ignored, or accepted, SYNC LOSS withdrawn and a round launched. RST holds rounds (R19). -/
def State.fieldSync (s : State) : State :=
  if s.rstActive || s.syncIgnored then s
  else (s.noteSync.withdraw srcSyncLoss).launch

/-- Whether the flywheel expires now: one and a quarter kept intervals have passed since the last launch (R8). -/
def State.flywheelDue (s : State) : Bool :=
  match s.round.keptInterval, s.round.lastLaunch with
  | some i, some l => !s.rstActive && decide (5 * i ≤ 4 * (s.now - l))
  | _, _ => false

/-- The flywheel count reaches 3: SYNC LOSS (R9). -/
def State.declareSyncLoss (s : State) : State :=
  { s with round := { s.round with flywheel := 3, sync := .lost } }.raise srcSyncLoss s.bareDetail

/-- The flywheel count rises by one, holding at 3; the rise to 3 declares SYNC LOSS (R8, R9). -/
def State.countFlywheel (s : State) : State :=
  if s.round.flywheel = 2 then s.declareSyncLoss
  else { s with round := { s.round with flywheel := min 3 (s.round.flywheel + 1) } }

/-- A flywheel expiry, if it is due: a flywheel round is launched, the reference cleared, the count raised (R8). -/
def State.flywheel (s : State) : State :=
  if s.flywheelDue then
    let s1 := s.launch
    State.countFlywheel { s1 with round := { s1.round with reference := none } }
  else s

/-! ### The return window (section 1.6) -/

/-- Whether FIELD HEAD f opens the window: the round launched last has that count and its FIELD HEAD is not back (R15). -/
def State.headOpens (s : State) (f : Field) : Bool := s.round.phase == .awaited && f == s.fieldCount

/-- FIELD HEAD f returns (R15): the window opens and no station has reported in it. -/
def State.fieldHead (s : State) (f : Field) : State :=
  if s.headOpens f then { s with round := { s.round with phase := .windowOpen, reported := [] } } else s

/-- ROUND END f returns (R15): the window closes, the placed list is discarded, field f closes (R17). -/
def State.roundEnd (s : State) (f : Field) : State :=
  if s.round.phase == .windowOpen && f == s.fieldCount then
    State.fieldClose { s with round := { s.round with phase := .complete, placed := [] } } f true
  else s

/-- The earliest unmatched entry of the placed list that agrees with a telegram, marked matched, and its cue (R16). -/
def matchPlaced (t : Telegram) : List Placed → Option (CueId × List Placed)
  | [] => none
  | p :: rest =>
    if !p.matched && p.telegram.dest == t.dest && p.telegram.kind == t.kind && p.telegram.payload == t.payload then
      some (p.cue, { p with matched := true } :: rest)
    else (matchPlaced t rest).map (fun x => (x.1, p :: x.2))

/-- A telegram of the controller other than FIELD HEAD and ROUND END returns in the window (R16). -/
def State.ownReturn (s : State) (t : Telegram) : State :=
  match matchPlaced t s.round.placed with
  | some (id, placed) => State.undelivered { s with round := { s.round with placed := placed } } id t.dest
  | none => s

end Sys2Proof.Machine
end

