-- ==== Sys2Proof/Machine/Desk.lean ====
section
/-! DEFINITION. The desk handler (section 11.1) and the commands that edit, swap and run the cue list (Chapters 4, 5). -/

namespace Sys2Proof.Machine

/-! ### Answers (R189 to R191, R196) -/

/-- What a command is answered with: nothing (RESET CONTROLLER, and CLEAR, which queues its own), or a key, an outcome (none is
ACCEPTED) and the data of each part. -/
inductive Answer where
  | silent
  | reply (key : Option (BitVec 16)) (outcome : Option Reason) (parts : List (List Byte))
deriving DecidableEq, Repr

/-- ACCEPTED with no data. -/
def accept (key : Option (BitVec 16)) : Answer := .reply key none [[]]

/-- ACCEPTED with the data of one part. -/
def acceptWith (key : Option (BitVec 16)) (data : List Byte) : Answer := .reply key none [data]

/-- REFUSED for a reason. -/
def refuse (key : Option (BitVec 16)) (r : Reason) : Answer := .reply key (some r) [[]]

/-- The key that names a number given as one byte. -/
def byteKey (b : Byte) : Option (BitVec 16) := some (b.setWidth 16)

/-- A command's work: none when the parameters have not the length of the command (LENGTH, R189). -/
abbrev Handler := List Byte → State → Option (State × Answer)

/-- The replies of the parts of an answer, numbered from i, the last marked (R190, R196). -/
def numberParts (selector : Byte) (key : Option (BitVec 16)) (outcome : Option Reason) (f : Field) :
    Nat → List (List Byte) → List Reply
  | _, [] => []
  | i, d :: rest =>
    { selector := selector, key := key, outcome := outcome, field := f, part := i, last := rest.isEmpty, data := d }
      :: numberParts selector key outcome f (i + 1) rest

/-- Queue an answer: a read with more parts than places free is refused with BUSY in one reply (R191). -/
def State.queueAnswer (s : State) (selector : Byte) (f : Field) (room : Nat) : Answer → State
  | .silent => s
  | .reply key outcome parts =>
    if room < parts.length then
      s.queueReplies [{ selector := selector, key := key, outcome := some .busy, field := f }]
    else s.queueReplies (numberParts selector key outcome f 1 parts)

/-- The desk handler's room: sixteen replies less those waiting (R191). -/
def State.replyRoom (s : State) : Nat := 16 - s.round.replies.length

/-- One command at its arrival (R188, R189, R191): discarded when sixteen replies wait, else refused with UNKNOWN or LENGTH, else
performed and answered. -/
def State.performDesk (s : State) (selector : Byte) (params : List Byte) (work : Option Handler) : State :=
  if s.replyRoom = 0 then s
  else
    match work with
    | none => s.queueReplies [{ selector := selector, outcome := some .unknown, field := s.fieldCount }]
    | some h =>
      match h params s with
      | none => s.queueReplies [{ selector := selector, outcome := some .length, field := s.fieldCount }]
      | some (s1, a) => s1.queueAnswer selector s.fieldCount s.replyRoom a

/-! ### The gate of the edits (R62) -/

/-- The first test of R62 that an edit aimed at a bank fails. -/
def State.editGate (s : State) (bank : Byte) : Option Reason :=
  match bankOf bank with
  | none => some .badField
  | some b => if s.cues.swapPending then some .busy else if b == .live then some .live else none

/-- Replace the PRESET bank. -/
def State.setPreset (s : State) (bank : List Cue) : State := { s with cues := { s.cues with preset := bank } }

/-- A cue id a cue can have, 1 to 999 (R60). -/
def goodId (id : CueId) : Bool := decide (1 ≤ id.toNat) && decide (id.toNat ≤ 999)

/-- A cue id of 0 means none (R205). -/
def optionalId (id : CueId) : Option CueId := if id = 0 then none else some id

/-! ### LOAD CUE (R63 to R65) -/

/-- The parameters of LOAD CUE, as Table 12-2 lays them out. -/
structure LoadParams where
  id        : CueId
  chain     : Byte
  kind      : Byte
  reference : Byte
  frame     : Frame
  offset    : BitVec 16
  release   : Byte
  follow    : CueId
  permit    : Byte
  snapshot  : Byte
  sense     : Byte
  before    : CueId

/-- An optional number given as a byte, 0xFF for absent: none when it is refused (R205). -/
def optionalIndex (n : Nat) (b : Byte) : Option (Option (Fin n)) :=
  if b = 0xFF then some none else (indexOf n b).map some

/-- The shutter sense: needed for SHUTTER, dropped for any other kind (R63). -/
def senseFor (kind : CueKind) (b : Byte) : Option (Option Sense) :=
  if kind == .shutter then (senseOf b).map some else some none

/-- The reference chain: dropped for PARK, else absent or 1 to 8 (R60, R63). -/
def referenceFor (kind : CueKind) (b : Byte) : Option (Option ChainNo) :=
  if kind == .park then some none else optionalIndex 8 b

/-- The offset brought into the range of the release (R60, R63). -/
def offsetFor (release : Release) (offset : Int) : Int :=
  if release == .follow then clampInt 0 250 offset else clampInt (-99) 99 offset

/-- The loaded fields as they would be stored, or none for BAD FIELD (R60, R63). -/
def loadedFields (p : LoadParams) : Option CueFields := do
  let chain ← indexOf 8 p.chain
  let kind ← kindOf p.kind
  let release ← releaseOf p.release
  let snapshot ← yesNo p.snapshot
  let reference ← referenceFor kind p.reference
  let permit ← optionalIndex 8 p.permit
  let sense ← senseFor kind p.sense
  if goodId p.id then
    some { id := p.id, chain := chain, kind := kind, reference := reference, frame := p.frame,
           offset := offsetFor release p.offset.toInt, release := release,
           follow := if release == .follow then optionalId p.follow else none,
           permit := permit, snapshot := snapshot, sense := sense }
  else none

/-- Insert a cue immediately before the cue with an id (R64). -/
def insertBefore (c : Cue) (id : CueId) : List Cue → List Cue
  | [] => []
  | x :: rest => if x.fields.id = id then c :: x :: rest else x :: insertBefore c id rest

/-- Replace the cue that has the same id in place (R64). -/
def replaceCue (c : Cue) (bank : List Cue) : List Cue :=
  bank.map (fun x => if x.fields.id == c.fields.id then c else x)

/-- Whether the cue with one id stands immediately before the cue with another (R64). -/
def standsBefore (id next : CueId) : List Cue → Bool
  | a :: b :: rest => (a.fields.id == id && b.fields.id == next) || standsBefore id next (b :: rest)
  | _ => false

/-- Where LOAD CUE places a cue: the bank as the placement would leave it, or the reason it is refused (R64). -/
def placeCue (bank : List Cue) (c : Cue) (before : Option CueId) : List Cue ⊕ Reason :=
  match (findCue bank c.fields.id).isSome, before with
  | false, none => if bank.length ≥ 64 then .inr .full else .inl (bank ++ [c])
  | false, some b =>
    if (findCue bank b).isNone then .inr .notFound
    else if bank.length ≥ 64 then .inr .full
    else .inl (insertBefore c b bank)
  | true, none => .inl (replaceCue c bank)
  | true, some b =>
    if (findCue bank b).isNone then .inr .notFound
    else if standsBefore c.fields.id b bank then .inl (replaceCue c bank)
    else .inr .duplicate

/-- Whether one cue stands earlier in a list than another (R65). -/
def standsEarlier (first second : CueId) : List Cue → Bool
  | [] => false
  | x :: rest =>
    if x.fields.id = second then false
    else if x.fields.id = first then rest.any (fun y => y.fields.id == second)
    else standsEarlier first second rest

/-- The follow check on the bank as the placement would leave it (R65). -/
def followHolds (bank : List Cue) (f : CueFields) : Bool :=
  if f.release == .follow then
    match f.follow with
    | none => false
    | some id => standsEarlier id f.id bank
  else true

/-- LOAD CUE past the gate of R62 (R63 to R65). -/
def State.loadPreset (s : State) (p : LoadParams) : State × Answer :=
  match loadedFields p with
  | none => (s, refuse (some p.id) .badField)
  | some f =>
    match placeCue s.cues.preset { fields := f } (optionalId p.before) with
    | .inr r => (s, refuse (some p.id) r)
    | .inl bank => if followHolds bank f then (s.setPreset bank, accept (some p.id)) else (s, refuse (some p.id) .badReference)

/-- LOAD CUE (R62 to R65). -/
def loadCue : Handler := fun params s =>
  match params with
  | [bank, i0, i1, chain, kind, ref, f0, f1, o0, o1, rel, w0, w1, permit, snap, sense, b0, b1] =>
    let p : LoadParams :=
      { id := word i0 i1, chain := chain, kind := kind, reference := ref, frame := word f0 f1, offset := word o0 o1,
        release := rel, follow := word w0 w1, permit := permit, snapshot := snap, sense := sense, before := word b0 b1 }
    match s.editGate bank with
    | some r => some (s, refuse (some p.id) r)
    | none => some (s.loadPreset p)
  | _ => none

/-- DELETE CUE past the gate of R62 (R66). -/
def State.deletePreset (s : State) (id : CueId) : State × Answer :=
  if !goodId id then (s, refuse (some id) .badField)
  else if (findCue s.cues.preset id).isNone then (s, refuse (some id) .notFound)
  else if s.cues.preset.any (fun c => c.fields.follow == some id && c.fields.id != id) then
    (s, refuse (some id) .badReference)
  else (s.setPreset (s.cues.preset.filter (fun c => c.fields.id != id)), accept (some id))

/-- DELETE CUE (R62, R66). -/
def deleteCue : Handler := fun params s =>
  match params with
  | [bank, i0, i1] =>
    match s.editGate bank with
    | some r => some (s, refuse (some (word i0 i1)) r)
    | none => some (s.deletePreset (word i0 i1))
  | _ => none

/-- CLEAR BANK (R62, R67). -/
def clearBank : Handler := fun params s =>
  match params with
  | [bank] =>
    match s.editGate bank with
    | some r => some (s, refuse none r)
    | none => some (s.setPreset [], accept none)
  | _ => none

/-! ### SWAP, CANCEL SWAP, ABANDON, TAKE, ALL STOP -/

/-- SWAP (R68). -/
def swap : Handler := fun params s =>
  match params with
  | [] => if s.cues.swapPending then some (s, refuse none .busy) else some (s.swapBanks, accept none)
  | _ => none

/-- CANCEL SWAP (R71). -/
def cancelSwap : Handler := fun params s =>
  match params with
  | [] => some ({ s with cues := { s.cues with swapPending := false } }, accept none)
  | _ => none

/-- ABANDON (R106). -/
def abandon : Handler := fun params s =>
  match params with
  | [i0, i1] =>
    let id := word i0 i1
    if !goodId id then some (s, refuse (some id) .badField)
    else if (s.liveCue id).isNone then some (s, refuse (some id) .notFound)
    else some (s.carryOut [.abandonNamed id], accept (some id))
  | _ => none

/-- TAKE: always accepted, its key the cue the take was given to, or none (R81, R193). -/
def take : Handler := fun params s =>
  match params with
  | [] => some (s.giveTake, accept (s.takeCandidate.map (fun c => c.fields.id)))
  | _ => none

/-- ALL STOP (R105). -/
def allStop : Handler := fun params s =>
  match params with
  | [] => some (s.allStop, accept none)
  | _ => none

end Sys2Proof.Machine
end

