-- ==== Sys2Proof/Machine/Settings.lean ====
section
/-! DEFINITION. The commands that configure (R21, R109, R113, R125, R155, R167, R169, R177, R103, R53), acknowledge and take
snapshots, and the two resets from the desk (section 11.4). -/

namespace Sys2Proof.Machine

/-! ### Chains and groups -/

/-- The configuration part that SET CHAIN carries, clamped (R21). -/
def chainConfigOf (enabled : Bool) (cadence : Cadence) (runUp lampLead : Byte) (spoolLimit : BitVec 16) (runOut : Frame) :
    ChainConfig :=
  { enabled := enabled, cadence := cadence, runUp := clampNat 1 250 runUp.toNat, lampLead := clampNat 0 250 lampLead.toNat,
    spoolLimit := clampNat 250 30000 spoolLimit.toNat, runOut := runOut }

/-- SET CHAIN (R21 to R23). -/
def setChain : Handler := fun params s =>
  match params with
  | [chain, enabled, cadence, runUp, lampLead, sp0, sp1, ro0, ro1] =>
    match indexOf 8 chain, yesNo enabled, cadenceOf cadence with
    | some n, some e, some c =>
      some (s.configureChain n (chainConfigOf e c runUp lampLead (word sp0 sp1) (word ro0 ro1)), accept (byteKey chain))
    | _, _, _ => some (s, refuse (byteKey chain) .badField)
  | _ => none

/-- CLEAR FAULT (R31). -/
def clearFault : Handler := fun params s =>
  match params with
  | [chain] =>
    match indexOf 8 chain with
    | none => some (s, refuse (byteKey chain) .badField)
    | some n =>
      if (s.chain n).state != .faulted then some (s, accept (byteKey chain))
      else if (s.chain n).reported.stillFaulty then some (s, refuse (byteKey chain) .stillFaulty)
      else some (s.clearFault n, accept (byteKey chain))
  | _ => none

/-- An entry of SET GROUP: 0 for none, else a chain 1 to 8; none when it is refused (R125). -/
def mapEntry (b : Byte) : Option (Option ChainNo) := if b = 0 then some none else (indexOf 8 b).map some

/-- The same chain given twice (R125). -/
def hasDuplicate : List (Option ChainNo) → Bool
  | [] => false
  | a :: rest => (a.isSome && rest.contains a) || hasDuplicate rest

/-- The other group. -/
def GroupId.other : GroupId → GroupId
  | .a => .b
  | .b => .a

/-- SET GROUP past its BAD FIELD tests (R125, R126). -/
def State.configureGroup (s : State) (g : GroupId) (m : Vector (Option ChainNo) 4) : State × Option Reason :=
  if (s.group g).inFlight.isSome then (s, some .busy)
  else if m.toList.any (fun e => match e with
      | some n => ((s.group g.other).inputOf n).isSome
      | none => false) then (s, some .badReference)
  else (State.deriveHolder (s.setGroup g { s.group g with map := m }) g, none)

/-- SET GROUP (R125, R126). -/
def setGroup : Handler := fun params s =>
  match params with
  | [group, a, b, c, d] =>
    match groupOfCode group, mapEntry a, mapEntry b, mapEntry c, mapEntry d with
    | some g, some x, some y, some z, some w =>
      if hasDuplicate [x, y, z, w] then some (s, refuse (byteKey group) .badField)
      else
        let t := s.configureGroup g ⟨#[x, y, z, w], rfl⟩
        some (t.1, .reply (byteKey group) t.2 [[]])
    | _, _, _, _, _ => some (s, refuse (byteKey group) .badField)
  | _ => none

/-! ### Permits, windows and watches -/

/-- SET PERMIT (R109). -/
def setPermit : Handler := fun params s =>
  match params with
  | [table, a, b, c, d, e0, e1] =>
    match indexOf 8 table, conditionOf a, conditionOf b, conditionOf c, conditionOf d with
    | some t, some w, some x, some y, some z =>
      some ({ s with permits := s.permits.set t { selectors := ⟨#[w, x, y, z], rfl⟩, entries := word e0 e1 } },
        accept (byteKey table))
    | _, _, _, _, _ => some (s, refuse (byteKey table) .badField)
  | _ => none

/-- Replace one window. -/
def State.putWindow (s : State) (w : WindowNo) (x : Option Window) : State := { s with windows := s.windows.set w x }

/-- The window SET WINDOW gives, its bounds in order (R113). -/
def windowOf (n : ChainNo) (first last : Frame) (e : WindowEffect) : Window :=
  if first.toNat ≤ last.toNat then { chain := n, first := first, last := last, effect := e }
  else { chain := n, first := last, last := first, effect := e }

/-- SET WINDOW (R113). -/
def setWindow : Handler := fun params s =>
  match params with
  | [window, chain, f0, f1, l0, l1, effect] =>
    match indexOf 16 window, indexOf 8 chain, effectOf effect with
    | some w, some n, some e =>
      some (s.putWindow w (some (windowOf n (word f0 f1) (word l0 l1) e)), accept (byteKey window))
    | _, _, _ => some (s, refuse (byteKey window) .badField)
  | _ => none

/-- CLEAR WINDOW (R113). -/
def clearWindow : Handler := fun params s =>
  match params with
  | [window] =>
    match indexOf 16 window with
    | some w => some (s.putWindow w none, accept (byteKey window))
    | none => some (s, refuse (byteKey window) .badField)
  | _ => none

/-- A signal that a watch may select: WATCH k only of a lower number (R153, R155). -/
def signalFor (k : WatchNo) (b : Byte) : Option Signal :=
  match signalOf b with
  | some (.watch j) => if j < k then some (.watch j) else none
  | other => other

/-- A qualifier given or absent, 0xFF (R155, R205). -/
def qualifierFor (k : WatchNo) (b : Byte) : Option (Option Signal) :=
  if b = 0xFF then some none else (signalFor k b).map some

/-- The limit of a watch, clamped: 1 to 255, for COUNT 1 to 65535 (R155). -/
def limitFor (mode : WatchMode) (limit : BitVec 16) : Nat :=
  clampNat 1 (if mode == .count then 65535 else 255) limit.toNat

/-- SET WATCH past the watch number (R155). -/
def watchOf (k : WatchNo) (enabled chain signal qualifier mode edge : Byte) (limit : BitVec 16) : Option Watch := do
  let e ← yesNo enabled
  let n ← indexOf 8 chain
  let sig ← signalFor k signal
  let q ← qualifierFor k qualifier
  let m ← modeOf mode
  let ed ← edgeOf edge
  some { enabled := e, chain := n, signal := sig, qualifier := q, mode := m, edge := ed, limit := limitFor m limit }

/-- SET WATCH (R155). -/
def setWatch : Handler := fun params s =>
  match params with
  | [watch, enabled, chain, signal, qualifier, mode, edge, l0, l1] =>
    match indexOf 16 watch with
    | none => some (s, refuse (byteKey watch) .badField)
    | some k =>
      match watchOf k enabled chain signal qualifier mode edge (word l0 l1) with
      | some w => some (s.configureWatch k w, accept (byteKey watch))
      | none => some (s, refuse (byteKey watch) .badField)
  | _ => none

/-! ### Alarms -/

/-- A level byte, brought to 7 when above it (R167, R169, R177). -/
def levelOf (b : Byte) : Level := ⟨min 7 b.toNat, by omega⟩

/-- A source named by a byte, 0 to 41 (R166, R171). -/
def sourceOf (b : Byte) : Option Source := if h : b.toNat < 42 then some ⟨b.toNat, h⟩ else none

/-- SET ALARM accepted: the setting replaced, selection, the ALM line (R167). -/
def State.configureAlarm (s : State) (src : Source) (x : Setting) : State :=
  (s.setAlarms { s.alarms with settings := s.alarms.settings.set src x }).selectAndJudge

/-- SET ALARM (R167). -/
def setAlarm : Handler := fun params s =>
  match params with
  | [source, level, mask] =>
    match sourceOf source, yesNo mask with
    | some src, some m =>
      if src = srcAirFault then some (s, refuse (byteKey source) .badField)
      else some (s.configureAlarm src { level := levelOf level, masked := m }, accept (byteKey source))
    | _, _ => some (s, refuse (byteKey source) .badField)
  | _ => none

/-- SET ALM THRESHOLD (R169). -/
def setAlmThreshold : Handler := fun params s =>
  match params with
  | [level] => some ((s.setAlarms { s.alarms with threshold := levelOf level }).judgeAlm, accept none)
  | _ => none

/-- The source at the top of the in-service list. -/
def AlarmUnit.current (a : AlarmUnit) : Option Source := a.inService.head?.map Entry.source

/-- An optional source in a reply: its presence, then the source (section 12.4, log 18). -/
def sourceData (src : Option Source) : List Byte :=
  [flagByte [src.isSome], byteOf (match src with
    | some x => x.val
    | none => 0)]

/-- ACKNOWLEDGE (R166, R195). -/
def acknowledge : Handler := fun params s =>
  match params with
  | [source] =>
    match sourceOf source with
    | none => some (s, refuse (byteKey source) .badField)
    | some src =>
      if s.alarms.current = some src then
        some (s.acknowledgeTop, acceptWith (byteKey source) (sourceData s.acknowledgeTop.alarms.current))
      else if s.alarms.isInService src then some (s, refuse (byteKey source) .notTop)
      else some (s, refuse (byteKey source) .notInService)
  | _ => none

/-! ### Snapshots -/

/-- The trigger settings that SET SNAPSHOT carries, clamped (R177). -/
def triggersOf (triggers : Byte) (dwell : BitVec 16) (level mask : Byte) (almostFull : BitVec 16) : TriggerSettings :=
  { cue := triggers.getLsbD 0, alarm := triggers.getLsbD 1, periodic := triggers.getLsbD 2,
    dwell := clampNat 1 9999 dwell.toNat, level := levelOf level, chainMask := mask,
    almostFull := clampNat 1 512 almostFull.toNat }

/-- SET SNAPSHOT accepted (R177, R182, R186). -/
def State.configureSnapshots (s : State) (t : TriggerSettings) : State :=
  let b := if t.chainMask = s.snaps.settings.chainMask then s.snaps else s.snaps.cancel
  (s.setSnaps { b with settings := t, dwellCount := 0 }).judgeAlmostFull

/-- SET SNAPSHOT (R177). -/
def setSnapshot : Handler := fun params s =>
  match params with
  | [triggers, d0, d1, level, mask, a0, a1] =>
    if triggers.toNat ≥ 8 then some (s, refuse none .badField)
    else some (s.configureSnapshots (triggersOf triggers (word d0 d1) level mask (word a0 a1)), accept none)
  | _ => none

/-- SNAP: its reply carries the field of its header, or it is refused with FULL (R181, R195). -/
def snap : Handler := fun params s =>
  match params with
  | [] =>
    if s.snapshotFits then some (s.requestSnapshot .desk none, acceptWith none (wordBytes s.fieldCount))
    else some (s.requestSnapshot .desk none, refuse none .full)
  | _ => none

/-- READ SNAPSHOTS (R183, R195). -/
def readSnapshots : Handler := fun params s =>
  match params with
  | [count] =>
    if s.snaps.readout.state != .idle then some (s, refuse none .busy)
    else
      let owed := min (clampNat 1 16 count.toNat) s.snaps.store.length
      some (s.setSnaps { s.snaps with readout := { state := .sending, owed := owed, nextCell := 1, number := 0 } },
        acceptWith none [byteOf owed, itemByte (s.snaps.cellsOwed owed)])
  | _ => none

/-! ### Rehearse and the withhold limit -/

/-- SET REHEARSE (R103, R104, R194). -/
def setRehearse : Handler := fun params s =>
  match params with
  | [value] =>
    match yesNo value with
    | some v => some (s.setRehearse v, accept none)
    | none => some (s, refuse none .badField)
  | _ => none

/-- SET WITHHOLD LIMIT (R53). -/
def setWithholdLimit : Handler := fun params s =>
  match params with
  | [limit] => some ({ s with cues := { s.cues with limit := clampNat 1 250 limit.toNat } }, accept none)
  | _ => none

/-! ### CLEAR and RESET CONTROLLER (section 11.4) -/

/-- The round master at CLEAR (R20). -/
def RoundMaster.cleared (r : RoundMaster) : RoundMaster :=
  { r with sets := [], notices := [], replies := [], placed := [], flywheel := 0, broken := 0 }

/-- A chain record at CLEAR (R44): configuration and reported values kept. -/
def ChainRecord.cleared (r : ChainRecord) : ChainRecord := { config := r.config, reported := r.reported }

/-- A group record at CLEAR (R124): the map kept. -/
def GroupRecord.cleared (r : GroupRecord) : GroupRecord := { map := r.map }

/-- The cue engine at CLEAR (R45, R75, R107): the PRESET bank, the rehearse flag and the limit kept. -/
def CueEngine.cleared (e : CueEngine) : CueEngine :=
  { e with live := e.live.map Cue.atEntry, swapPending := false, updateField := Vector.replicate 8 none }

/-- The alarm unit at CLEAR (R173): settings and threshold kept, the line judged inactive. -/
def AlarmUnit.cleared (a : AlarmUnit) : AlarmUnit :=
  { a with pending := Vector.replicate 42 none, inService := [], alm := false }

/-- Every block resets its runtime state (R201 steps 1 and 2). -/
def State.clearBlocks (s : State) : State :=
  { s with
    round := s.round.cleared
    chains := mapTable ChainRecord.cleared s.chains
    cues := s.cues.cleared
    groupA := s.groupA.cleared
    groupB := s.groupB.cleared
    watches := s.watches.cleared
    alarms := s.alarms.cleared
    snaps := s.snaps.cleared }

/-- The selector of CLEAR (Table 12-2). -/
def selClear : Byte := 0x3E

/-- CLEAR (R201): the blocks are cleared, the reply is queued first in class 5, then eligibility is computed. -/
def clear : Handler := fun params s =>
  match params with
  | [] =>
    let s1 := s.clearBlocks.queueReplies [{ selector := selClear, field := s.fieldCount }]
    some (s1.carryOut s1.eligibleAll, .silent)
  | _ => none

/-- RESET CONTROLLER: a full reset and no reply (R202). -/
def resetController : Handler := fun params s =>
  match params with
  | [] => some (s.fullReset, .silent)
  | _ => none

end Sys2Proof.Machine
end

