-- ==== Sys2Proof/Machine/Reads.lean ====
section
/-! DEFINITION. The read commands (section 11.3): they answer from the state as it stands and change nothing. The data follow
section 12.4: the yes/no items and the presence of optional fields of a part in its first byte (log 18), then the items in the
order listed. -/

namespace Sys2Proof.Machine

/-! ### Codes in the order of their own tables (log 19) -/

def syncCode : SyncState → Nat
  | .unlocked => 0 | .learning => 1 | .locked => 2 | .lost => 3

def cadenceCode : Cadence → Nat
  | .twoTwo => 0 | .twoThree => 1

def motionCode : Motion → Nat
  | .none => 0 | .spoolTo _ => 1 | .run _ => 2 | .stop => 3

/-- The target or expected field of a commanded motion, 0 where it has none (the model's choice, log 49). -/
def motionWord : Motion → BitVec 16
  | .none => 0
  | .spoolTo t => t
  | .run e => e
  | .stop => 0

def lampCommandCode : LampCommand → Nat
  | .none => 0 | .up => 1 | .standby => 2

def shutterCommandCode : ShutterCommand → Nat
  | .none => 0 | .opened => 1 | .closed => 2

def lineCode : Option Contact → Nat
  | some .opened => 0
  | some .closed => 1
  | none => 2

def readoutCode : ReadoutState → Nat
  | .idle => 0 | .sending => 1 | .cancelling => 2

/-- A chain or 0 for none. -/
def chainCode : Option ChainNo → Nat
  | some n => chainNumber n
  | none => 0

/-- An index number or 0 for none. -/
def indexCode {n : Nat} : Option (Fin n) → Nat
  | some i => i.val + 1
  | none => 0

/-! ### READ STATUS (R196) -/

/-- The sixteen bytes of READ STATUS. -/
def State.statusData (s : State) : List Byte :=
  [flagByte [s.cues.rehearse, s.cues.swapPending, s.alarms.alm, s.alarms.current.isSome, s.snaps.almostFull]]
    ++ wordBytes s.fieldCount
    ++ [byteOf (syncCode s.round.sync), byteOf s.round.flywheel, byteOf s.round.broken, byteOf s.cues.live.length,
        byteOf s.cues.preset.length]
    ++ wordBytes (BitVec.ofNat 16 s.cues.limit)
    ++ [byteOf s.alarms.threshold.val,
        byteOf (match s.alarms.current with
          | some x => x.val
          | none => 0),
        byteOf (lineCode s.take.accepted), byteOf (lineCode s.hold.accepted),
        itemByte (cellsHeld s.snaps.store), byteOf (readoutCode s.snaps.readout.state)]

def readStatus : Handler := fun params s =>
  match params with
  | [] => some (s, acceptWith none s.statusData)
  | _ => none

/-! ### READ CHAIN and READ GROUP (R197) -/

/-- Part 1 of READ CHAIN: configuration and commanded part; the motion stands as a code and one word, with no presence flag (the
model's choice, log 49). -/
def ChainRecord.part1 (r : ChainRecord) : List Byte :=
  [flagByte [r.config.enabled, r.commanded.parkTarget.isSome], byteOf (cadenceCode r.config.cadence), byteOf r.config.runUp,
    byteOf r.config.lampLead] ++ wordBytes (BitVec.ofNat 16 r.config.spoolLimit) ++ wordBytes r.config.runOut
    ++ [byteOf (motionCode r.commanded.motion)] ++ wordBytes (motionWord r.commanded.motion)
    ++ [byteOf (lampCommandCode r.commanded.lamp), byteOf (shutterCommandCode r.commanded.shutter)]
    ++ wordBytes (r.commanded.parkTarget.getD 0)

/-- Part 2 of READ CHAIN: the items that R197 lists; the reference dropped flag of Table 2-2 is not among them (log 46). -/
def ChainRecord.part2 (r : ChainRecord) : List Byte :=
  [flagByte [r.reported.dowser, r.reported.brk, r.reported.gate, r.heard, r.coasted, r.stale]]
    ++ wordBytes r.reported.frame
    ++ [byteOf r.reported.phase.toNat, byteOf (motorCode r.reported.motor), byteOf r.reported.direction.toNat,
        byteOf (lampCode r.reported.lamp), byteOf r.coastCount, byteOf r.missingCount, byteOf r.slipCount,
        byteOf (causeCode r.faultCause.asCause), byteOf (chainStateCode r.state)]

def readChain : Handler := fun params s =>
  match params with
  | [chain] =>
    match indexOf 8 chain with
    | none => some (s, refuse (byteKey chain) .badField)
    | some n => some (s, .reply (byteKey chain) none [(s.chain n).part1, (s.chain n).part2])
  | _ => none

/-- The data of READ GROUP; the set of causes raised stands in a byte of its own after the air holder (the model's choice,
log 50). -/
def GroupRecord.data (r : GroupRecord) : List Byte :=
  [flagByte [r.selected.isSome, r.fault, r.holder.isSome, r.inFlight.isSome, (r.inFlight.bind InFlight.outgoing).isSome]]
    ++ r.map.toList.map (fun e => byteOf (chainCode e))
    ++ [byteOf (match r.selected with
          | some i => i.val
          | none => 0),
        byteOf (chainCode r.holder),
        flagByte [r.causes.faulted, r.causes.speed, r.causes.silent, r.causes.runOut]]
    ++ (match r.inFlight with
        | some x => wordBytes x.cue ++ [byteOf (chainNumber x.incoming), byteOf (x.input.val + 1), byteOf (chainCode x.outgoing)]
        | none => [0, 0, 0, 0, 0])

def readGroup : Handler := fun params s =>
  match params with
  | [group] =>
    match groupOfCode group with
    | none => some (s, refuse (byteKey group) .badField)
    | some g => some (s, acceptWith (byteKey group) (s.group g).data)
  | _ => none

/-! ### READ CUE and READ BANK (R198) -/

/-- Part 1 of READ CUE: the loaded fields as stored. -/
def CueFields.part1 (f : CueFields) : List Byte :=
  [flagByte [f.reference.isSome, f.follow.isSome, f.permit.isSome, f.snapshot, f.sense.isSome]]
    ++ wordBytes f.id ++ [byteOf (chainNumber f.chain), byteOf (kindCode f.kind), byteOf (chainCode f.reference)]
    ++ wordBytes f.frame ++ wordBytes (BitVec.ofInt 16 f.offset) ++ [byteOf (releaseCode f.release)]
    ++ wordBytes (f.follow.getD 0)
    ++ [byteOf (indexCode f.permit), byteOf (match f.sense with
          | some x => senseCode x
          | none => 0)]

/-- Part 2 of READ CUE: the runtime fields, and the effect field of a FIRED cue. -/
def CueRuntime.part2 (r : CueRuntime) : List Byte :=
  [flagByte [r.late, r.dueField.isSome, r.firedField.isSome, r.lampSent, r.takeGiven, r.rehearsed, r.effectField.isSome],
    byteOf (cueStateCode r.state), byteOf r.shortfall]
    ++ wordBytes (r.dueField.getD 0) ++ wordBytes (r.firedField.getD 0)
    ++ [byteOf (causeCode r.reason.asCause), byteOf r.withholdCount, itemByte r.confirmCount,
        byteOf (causeCode r.cause.asCause)] ++ wordBytes (r.effectField.getD 0)

/-- The bank of a name. -/
def State.bank (s : State) : BankName → List Cue
  | .live => s.cues.live
  | .preset => s.cues.preset

def bankCode : BankName → Nat
  | .live => 1 | .preset => 2

def readCue : Handler := fun params s =>
  match params with
  | [bank, i0, i1] =>
    let id := word i0 i1
    match bankOf bank with
    | none => some (s, refuse (some id) .badField)
    | some b =>
      if !goodId id then some (s, refuse (some id) .badField)
      else match findCue (s.bank b) id with
        | none => some (s, refuse (some id) .notFound)
        | some c => some (s, .reply (some id) none [c.fields.part1, c.runtime.part2])
  | _ => none

/-- An entry of READ BANK: the cue id in bits 0 to 9, the cue state in bits 10 to 12 (section 12.4). -/
def bankEntry (c : Cue) : List Byte :=
  wordBytes (BitVec.ofNat 16 (c.fields.id.toNat % 1024 + 1024 * cueStateCode c.runtime.state))

/-- The entries six to a part, `fuel` bounding the number of parts. -/
def bankParts (front : List Byte) : Nat → List Cue → List (List Byte)
  | 0, _ => []
  | fuel + 1, bank =>
    (front ++ (bank.take 6).flatMap bankEntry) :: (if (bank.drop 6).isEmpty then [] else bankParts front fuel (bank.drop 6))

def readBank : Handler := fun params s =>
  match params with
  | [bank] =>
    match bankOf bank with
    | none => some (s, refuse none .badField)
    | some b =>
      let list := s.bank b
      some (s, .reply none none (bankParts [byteOf (bankCode b), byteOf list.length] (list.length + 1) list))
  | _ => none

/-! ### READ WATCH, READ PERMIT and READ WINDOW (R199) -/

/-- The data of READ WATCH. -/
def Watch.data (w : Watch) : List Byte :=
  [flagByte [w.enabled, w.qualifier.isSome, w.output, w.previous.isSome, w.previous.getD false],
    byteOf (chainNumber w.chain), byteOf (signalCode w.signal),
    byteOf (match w.qualifier with
      | some q => signalCode q
      | none => 0),
    byteOf (modeCode w.mode), byteOf (edgeCode w.edge)]
    ++ wordBytes (BitVec.ofNat 16 w.limit) ++ [itemByte w.count]

def readWatch : Handler := fun params s =>
  match params with
  | [watch] =>
    match indexOf 16 watch with
    | none => some (s, refuse (byteKey watch) .badField)
    | some k => some (s, acceptWith (byteKey watch) s.watches.watches[k].data)
  | _ => none

def readPermit : Handler := fun params s =>
  match params with
  | [table] =>
    match indexOf 8 table with
    | none => some (s, refuse (byteKey table) .badField)
    | some t => some (s, acceptWith (byteKey table)
        (s.permits[t].selectors.toList.map (fun c => byteOf (conditionCode c)) ++ wordBytes s.permits[t].entries))
  | _ => none

/-- The data of READ WINDOW. -/
def windowData : Option Window → List Byte
  | none => [0, 0, 0, 0, 0, 0, 0]
  | some w => [1, byteOf (chainNumber w.chain)] ++ wordBytes w.first ++ wordBytes w.last ++ [effectByte w.effect]

def readWindow : Handler := fun params s =>
  match params with
  | [window] =>
    match indexOf 16 window with
    | none => some (s, refuse (byteKey window) .badField)
    | some w => some (s, acceptWith (byteKey window) (windowData s.windows[w]))
  | _ => none

/-! ### READ ALARMS (R171, R200) -/

/-- A detail in a reply; six zero bytes when it is absent. -/
def optionalDetail : Option Detail → List Byte
  | some d => detailBytes d
  | none => [0, 0, 0, 0, 0, 0]

/-- Part 1 of READ ALARMS naming a source: level, mask, pending record; the raised flag stands for the presence of the detail too
(the model's choice, log 18). -/
def AlarmUnit.sourcePart1 (a : AlarmUnit) (src : Source) : List Byte :=
  let p := a.pending[src]
  [flagByte [a.masked src, p.isSome, match p with
      | some x => x.again
      | none => false], byteOf (a.level src).val]
    ++ optionalDetail (p.map PendingRecord.detail)

/-- Part 2 of READ ALARMS naming a source: its entry in service, if it has one. -/
def AlarmUnit.sourcePart2 (a : AlarmUnit) (src : Source) : List Byte :=
  match entryPosition src a.inService 1 with
  | some (i, e) => [flagByte [true], byteOf i] ++ entryBytes e.source e.level e.again ++ detailBytes e.detail
  | none => [0, 0, 0, 0, 0, 0, 0, 0, 0, 0]

/-- The three parts of READ ALARMS naming no source; the third gathers pending and repeat flag of the 42 sources in turn, eight
items to a byte (the model's choice, log 44). -/
def AlarmUnit.overview (a : AlarmUnit) : List (List Byte) :=
  let entries := a.inService.map (fun e => entryBytes e.source e.level e.again)
  [ [flagByte [a.alm], byteOf a.threshold.val, byteOf a.inService.length] ++ (entries.take 4).flatten,
    (entries.drop 4).flatten,
    flagBytes (a.pending.toList.flatMap (fun p => [p.isSome, match p with
      | some x => x.again
      | none => false])) ]

def readAlarms : Handler := fun params s =>
  match params with
  | [source] =>
    if source = 0xFF then some (s, .reply none none s.alarms.overview)
    else match sourceOf source with
      | none => some (s, refuse (byteKey source) .badField)
      | some src => some (s, .reply (byteKey source) none [s.alarms.sourcePart1 src, s.alarms.sourcePart2 src])
  | _ => none

end Sys2Proof.Machine
end

