-- ==== Sys2Proof/Machine/Receive.lean ====
section
/-! DEFINITION. The assembler (R4, R5), the sorting of received telegrams (R6) and their handing on. -/

namespace Sys2Proof.Machine

/-! ### The assembler (section 1.2) -/

/-- A gap of more than 2 character times, in samples (R5). -/
def longGap (gap : Nat) : Bool := decide (352 < gap)

/-- A telegram from its bytes, address first and check byte last; the length byte has been obeyed (section 12.1). -/
def telegramOf : List Byte → Option Telegram
  | address :: kind :: _ :: rest =>
    some { dest := address.extractLsb' 4 4, src := address.extractLsb' 0 4, kind := kind, payload := rest.dropLast }
  | _ => none

/-- A complete telegram judged: a bad character or a check byte that differs makes it fail (R5, R204). -/
def judgeTelegram (got : List Byte) (bad : Bool) : Option Telegram :=
  if bad || got.getLast? != some (checkOf got.dropLast) then none else telegramOf got

/-- The characters that a telegram takes by its length byte. -/
def expectedChars (got : List Byte) : Nat := 4 + (got.getD 2 0).toNat

/-- The character takes its place in the telegram being assembled (R4, R5). -/
def takeInTelegram (got : List Byte) (bad : Bool) (c : RxChar) : Assembler × Option Telegram :=
  let got' := got ++ [c.data]
  if got'.length = 3 && (c.bad || decide (24 < c.data.toNat)) then (.hunt, none)
  else if 3 ≤ got'.length && got'.length = expectedChars got' then (.awaitAddress, judgeTelegram got' (bad || c.bad))
  else (.inTelegram got' (bad || c.bad), none)

/-- One character reaches the assembler (R4, R5): its state afterwards, and the telegram received, if one is. -/
def assemble (a : Assembler) (c : RxChar) : Assembler × Option Telegram :=
  match a with
  | .awaitAddress => (.inTelegram [c.data] c.bad, none)
  | .hunt => if longGap c.gap then (.inTelegram [c.data] c.bad, none) else (.hunt, none)
  | .inTelegram got bad => if longGap c.gap then (.inTelegram [c.data] c.bad, none) else takeInTelegram got bad c

/-! ### Desk commands (R188, R189) -/

/-- The work of a command by its selector (Tables 11-1 and 12-2). -/
def handlerOf (selector : Byte) : Option Handler :=
  match selector.toNat with
  | 0x01 => some loadCue
  | 0x02 => some deleteCue
  | 0x03 => some clearBank
  | 0x04 => some swap
  | 0x05 => some cancelSwap
  | 0x06 => some abandon
  | 0x07 => some take
  | 0x08 => some allStop
  | 0x10 => some setChain
  | 0x11 => some setGroup
  | 0x12 => some clearFault
  | 0x13 => some setPermit
  | 0x14 => some setWindow
  | 0x15 => some clearWindow
  | 0x16 => some setWatch
  | 0x17 => some setAlarm
  | 0x18 => some setAlmThreshold
  | 0x19 => some setSnapshot
  | 0x1A => some setRehearse
  | 0x1B => some setWithholdLimit
  | 0x20 => some acknowledge
  | 0x21 => some snap
  | 0x22 => some readSnapshots
  | 0x30 => some readStatus
  | 0x31 => some readChain
  | 0x32 => some readGroup
  | 0x33 => some readCue
  | 0x34 => some readBank
  | 0x35 => some readWatch
  | 0x36 => some readPermit
  | 0x37 => some readWindow
  | 0x38 => some readAlarms
  | 0x3E => some clear
  | 0x3F => some resetController
  | _ => none

/-- A DESK COMMAND handed to the desk handler; one with no byte at all names no command (R189, log 20). -/
def State.deskTelegram (s : State) : List Byte → State
  | [] => s.performDesk 0 [] none
  | selector :: params => s.performDesk selector params (handlerOf selector)

/-! ### Sorting (R6) -/

/-- Whether a return window is open (R15). -/
def State.windowOpen (s : State) : Bool := s.round.phase == .windowOpen

/-- The field count that a FIELD HEAD carries; any other payload is none (section 12.2). -/
def headField : List Byte → Option Field
  | [lo, hi, _] => some (word lo hi)
  | _ => none

/-- The field count that a ROUND END carries (section 12.2). -/
def endField : List Byte → Option Field
  | [lo, hi] => some (word lo hi)
  | _ => none

/-- A FIELD HEAD from source 0 (R15); one without a field count is discarded (log 23). -/
def State.headReturn (s : State) (payload : List Byte) : State :=
  match headField payload with
  | some f => s.fieldHead f
  | none => s

/-- A ROUND END from source 0 (R15). -/
def State.endReturn (s : State) (payload : List Byte) : State :=
  match endField payload with
  | some f => s.roundEnd f
  | none => s

/-- The report of a station has counted for the open window (R6). -/
def State.noteReported (s : State) (station : Station) : State :=
  { s with round := { s.round with reported := s.round.reported ++ [station] } }

/-- A report is addressed to the controller or to broadcast (R6). -/
def toController (dest : Station) : Bool := dest == 0 || dest == 15

/-- A CHAIN REPORT from chain n's unit: the first of the window counts, well formed or not (R6, R24). -/
def State.chainReport (s : State) (n : ChainNo) (payload : List Byte) : State :=
  if s.round.reported.contains (chainAddress n) then s
  else (s.noteReported (chainAddress n)).chainArrival n payload

/-- A MUX REPORT of a group: the first of the window counts, well formed or not (R6, R127). -/
def State.muxReport (s : State) (g : GroupId) (payload : List Byte) : State :=
  if s.round.reported.contains (groupAddress g) then s
  else (s.noteReported (groupAddress g)).muxArrival g payload

/-- A telegram of the controller's own returns in the window (R6, R15, R16). -/
def State.sortOwn (s : State) (t : Telegram) : State :=
  if t.kind = kindFieldHead then s.headReturn t.payload
  else if t.kind = kindRoundEnd then s.endReturn t.payload
  else s.ownReturn t

/-- A telegram of another station, received in the window (R6). -/
def State.sortOther (s : State) (t : Telegram) : State :=
  match addressee t.src with
  | (some n, _) => if t.kind = kindChainReport && toController t.dest then s.chainReport n t.payload else s
  | (none, some g) => if t.kind = kindMuxReport && toController t.dest then s.muxReport g t.payload else s
  | (none, none) =>
    if t.src = 14 && t.kind = kindDeskCommand && t.dest == 0 then s.deskTelegram t.payload else s

/-- A received telegram is sorted (R6). -/
def State.receiveTelegram (s : State) (t : Telegram) : State :=
  if s.windowOpen then (if t.src = 0 then s.sortOwn t else s.sortOther t)
  else if t.src = 0 && t.kind = kindFieldHead then s.headReturn t.payload
  else s

/-! ### Telegrams and characters as commands -/

/-- A command that stands for a telegram received: its check byte has just arrived, so the assembler awaits an address; while RST
is active it is dropped (R19, log 25). -/
def State.received (s : State) (act : State → State) : State :=
  if s.rstActive then s else act (s.setAssembler .awaitAddress)

/-- A command from the desk received as its own row of the table: what the sorting does with it (R6, R188). -/
def State.deskCommand (s : State) (selector : Byte) (params : List Byte) (work : Option Handler) : State :=
  s.received (fun t => if t.windowOpen then t.performDesk selector params work else t)

/-- One character off the line; a telegram it completes is received (R4). -/
def State.takeChar (s : State) (c : RxChar) : State :=
  if s.rstActive then s
  else
    let r := assemble s.port.assembler c
    let s1 := s.setAssembler r.1
    match r.2 with
    | some t => s1.receiveTelegram t
    | none => s1

end Sys2Proof.Machine
end

