-- ==== Sys2Proof/Machine/Port.lean ====
section
/-! DEFINITION. One receive sample period of the block left to itself: the pins sampled, the receiver, the FLD filter, the
flywheel and RST (R2, R3, R7, R8, R19). -/

namespace Sys2Proof.Machine

/-- The two-sample rule: a level is taken when two consecutive samples show it (R2). -/
def twoSample (filtered last sample : Bool) : Bool := if sample = last then sample else filtered

/-! ### The receiver (R2, R3) -/

/-- The eight data bits of a character, least significant first, as its byte. -/
def dataByte (bits : List Bool) : Byte := flagByte (bits.take 8)

/-- The parity of a character comes out odd over its data bits and parity bit (R1, R3). -/
def oddParity (bits : List Bool) : Bool := bits.foldl (· ^^ ·) false

/-- What the receiver does at one sample: its phase afterwards, and the gap before, bits and stop level of a character that has
just ended. -/
structure RxStep where
  phase     : RxPhase
  character : Option RxChar := none

/-- The phase at one sample, `level` the filtered level after it, `edge` a start edge, `gap` the samples since the last stop
bit's end (R2, R3). -/
def rxStep (phase : RxPhase) (level edge : Bool) (gap : Nat) : RxStep :=
  match phase with
  | .waiting => if edge then { phase := .startBit 8 gap } else { phase := .waiting }
  | .waitMark => if level then { phase := .waiting } else { phase := .waitMark }
  | .startBit left g =>
    if 1 < left then { phase := .startBit (left - 1) g }
    else if level then { phase := .waiting }
    else { phase := .inCharacter [] 16 g }
  | .inCharacter bits left g =>
    if 1 < left then { phase := .inCharacter bits (left - 1) g }
    else if bits.length < 9 then { phase := .inCharacter (bits ++ [level]) 16 g }
    else
      { phase := if level then .waiting else .waitMark
        character := some { gap := g, data := dataByte bits, bad := !oddParity bits || !level } }

/-- The receiver samples LRX (R2). -/
def State.sampleReceiver (s : State) : State × Option RxChar :=
  let level := twoSample s.port.filtered s.port.lastSample s.pins.lrx
  let x := rxStep s.port.phase level (s.port.filtered && !level) (s.now - s.port.lastStopEnd)
  let port := { s.port with
    filtered := level, lastSample := s.pins.lrx, phase := x.phase,
    lastStopEnd := if x.character.isSome then s.now + 8 else s.port.lastStopEnd }
  ({ s with port := port }, x.character)

/-! ### FLD (R7) -/

/-- FLD is sampled: the state after, and whether a field sync arrives (R7). -/
def State.sampleFld (s : State) : State × Bool :=
  let level := twoSample s.round.fldFiltered s.round.fldSample s.pins.fld
  ({ s with round := { s.round with fldFiltered := level, fldSample := s.pins.fld } }, s.round.fldFiltered && !level)

/-! ### What falls on one sample period -/

/-- What can fall on one sample period. -/
inductive Happening where
  | sync
  | expiry
  | character (c : RxChar)
deriving DecidableEq, Repr

/-- Carry one happening out; an expiry that a launch has put off does not occur (R7). -/
def State.happen (s : State) : Happening → State
  | .sync => s.fieldSync
  | .expiry => s.flywheel
  | .character c => s.takeChar c

/-- The order of the given number of the things in a list: the first is picked by the number's remainder, and so on. -/
def pickOrder {α : Type} : Nat → Nat → List α → List α
  | 0, _, l => l
  | fuel + 1, k, l =>
    match l[k % l.length]? with
    | none => l
    | some a => a :: pickOrder fuel (k / l.length) (l.eraseIdx (k % l.length))

/-- Carry out what falls on one sample period; for two or more the order is a free value (R7, log 26). -/
def State.happenAll (s : State) (l : List Happening) : State :=
  if l.length < 2 then l.foldl State.happen s
  else
    (pickOrder l.length (Config.tieOrder s.choices) l).foldl State.happen { s with choices := s.choices + 1 }

/-- One sample period with RST inactive. -/
def State.sampleAll (s : State) : State :=
  let rx := s.sampleReceiver
  let fld := rx.1.sampleFld
  fld.1.happenAll
    ((if fld.2 then [.sync] else []) ++ (if fld.1.flywheelDue then [.expiry] else []) ++ (rx.2.map .character).toList)

/-! ### The whole tick -/

/-- The pin levels of the next sample period, taken from those still to come (log 2). -/
def State.nextPins (s : State) : State :=
  match s.inputs with
  | [] => s
  | p :: rest => { s with pins := p, inputs := rest }

/-- One receive sample period passes (log 2): a change of RST makes a full reset, an active RST holds everything (R19). -/
def State.tick (s : State) : State :=
  let s1 := (s.elapse 1).nextPins
  if s1.pins.rst != s.pins.rst then s1.fullReset
  else if s1.rstActive then s1
  else s1.sampleAll

end Sys2Proof.Machine
end

