-- ==== Sys2Proof/Machine/LineCommands.lean ====
section
/-! DEFINITION. The meanings of the commands of the supply, the RST line, field sync, the flywheel and the shifter
(R1, R7 to R9, R18, R19). -/

namespace Sys2Proof.Machine

/-- What every meaning answers: the block goes on. -/
abbrev Answered := Host.Outcome State Fault Refusal

/-! ### Supply and RST (R19) -/

/-- POWER_UP (R19). -/
def execPowerUp (s : State) : Answered := .next s.fullReset

/-- RST becomes active (R19). -/
def execRstAssert (s : State) : Answered :=
  .next (State.fullReset { s with pins := { s.pins with rst := false } })

/-- RST becomes inactive: the hold ends at full-reset values (R19); a line that is inactive already changes nothing (log 21). -/
def execRstRelease (s : State) : Answered :=
  .next (if s.rstActive then State.fullReset { s with pins := { s.pins with rst := true } } else s)

/-! ### Field sync and the flywheel (R7 to R9) -/

/-- FIELD_SYNC_ARRIVAL: the time passes, then the sync arrives (R7). -/
def execFieldSyncArrival (elapsed : Nat) (take hold : Contact) (s : State) : Answered :=
  .next ((s.setContacts take hold).elapse elapsed).fieldSync

/-- The sample periods from now to the flywheel's expiry, one and a quarter kept intervals after the last launch (R8, log 9). -/
def State.samplesToExpiry (s : State) : Option Nat :=
  match s.round.keptInterval, s.round.lastLaunch with
  | some i, some l => some ((5 * i + 3) / 4 - (s.now - l))
  | _, _ => none

/-- Of the time a command gives, what passes before the flywheel expires (R8, log 9). -/
def State.timeToExpiry (s : State) (elapsed : Nat) : Nat :=
  match s.samplesToExpiry with
  | some n => min n elapsed
  | none => elapsed

/-- FLYWHEEL_EXPIRY: the time passes with no sync, and the flywheel expires if it falls due in it (R8). -/
def execFlywheelExpiry (elapsed : Nat) (take hold : Contact) (s : State) : Answered :=
  .next ((s.setContacts take hold).elapse (s.timeToExpiry elapsed)).flywheel

/-- Whether one more flywheel round brings the flywheel count to 3 (R8, R9). -/
def State.syncLossNext (s : State) : Bool :=
  !s.rstActive && s.round.keptInterval.isSome && s.round.flywheel == 2

/-- SYNC_LOSS: the flywheel count's rise from 2 to 3, taken alone (R9, log 3). -/
def execSyncLoss (s : State) : Answered := .next (if s.syncLossNext then s.declareSyncLoss else s)

/-! ### The broken count and the shifter -/

/-- LOOP_LOSS: the broken count's rise from 2 to 3, taken alone (R18, log 3). -/
def execLoopLoss (s : State) : Answered := .next (if s.round.broken = 2 then s.declareLoopLoss else s)

/-- ROUND_END_SHIFTED_OUT: the time passes that the round being sent still needs (R1). -/
def execRoundEndShiftedOut (s : State) : Answered := .next (s.elapse s.port.shifter.roundLeft)

end Sys2Proof.Machine
end

