-- ==== Sys2Proof/Machine/LoopCommands.lean ====
section
/-! DEFINITION. The meanings of the commands that stand for what comes back on the loop (R3 to R6, R15, R16, R24, R127). -/

namespace Sys2Proof.Machine

/-- The last character taken ends now, for the gap to the next (R5, log 30). -/
def State.noteStop (s : State) : State := { s with port := { s.port with lastStopEnd := s.now } }

/-- TELEGRAM_FAIL: the characters reach the assembler one by one (R3 to R5). -/
def execTelegramFail (chars : List RxChar) (s : State) : Answered :=
  .next (if s.rstActive then s else chars.foldl State.takeChar s.noteStop)

/-- IGNORED_TELEGRAM: the telegram is sorted, which discards it in the cases that R6 names (R6). -/
def execIgnoredTelegram (t : Telegram) (s : State) : Answered := .next (s.received (fun u => u.receiveTelegram t))

/-- FIELD_HEAD_RETURN: FIELD HEAD f is received (R15). -/
def execFieldHeadReturn (f : Field) (flags : Byte) (s : State) : Answered :=
  .next (s.received (fun u => u.receiveTelegram (ownTelegram 15 kindFieldHead (wordBytes f ++ [flags]))))

/-- ROUND_END_RETURN: ROUND END f is received (R15, R17). -/
def execRoundEndReturn (f : Field) (take hold : Contact) (s : State) : Answered :=
  .next ((s.setContacts take hold).received (fun u => u.receiveTelegram (roundEndTelegram f)))

/-- OWN_TELEGRAM_RETURN: a telegram from source 0 is received (R16). -/
def execOwnTelegramReturn (dest : Station) (kind : Byte) (payload : List Byte) (s : State) : Answered :=
  .next (s.received (fun u => u.receiveTelegram (ownTelegram dest kind payload)))

/-- CHAIN_REPORT: a CHAIN REPORT is received from a unit (R6, R24). -/
def execChainReport (unit dest : Station) (payload : List Byte) (s : State) : Answered :=
  .next (s.received (fun u => u.receiveTelegram { dest := dest, src := unit, kind := kindChainReport, payload := payload }))

/-- MUX_REPORT: a MUX REPORT is received from a multiplexer (R6, R127). -/
def execMuxReport (unit dest : Station) (payload : List Byte) (s : State) : Answered :=
  .next (s.received (fun u => u.receiveTelegram { dest := dest, src := unit, kind := kindMuxReport, payload := payload }))

end Sys2Proof.Machine
end

