-- ==== Sys2Proof/Machine/CloseCommands.lean ====
section
/-! DEFINITION. The meanings of the commands that are parts of another event's handling, taken alone (log 3): each has its effect
when the condition its rule states holds in the state as it stands, and none otherwise. -/

namespace Sys2Proof.Machine

/-! ### The swap (R69, R70) -/

/-- A pending swap that nothing holds back (R70). -/
def State.swapReady (s : State) : Bool := s.cues.swapPending && s.swapFree

/-- SWAP_TAKEN (R69, R70, R73). -/
def execSwapTaken (s : State) : Answered :=
  .next (if s.swapReady then s.takeSwap.carryOut s.takeSwap.eligibleAll else s)

/-! ### Settling one chain (R38, R39) -/

/-- CHAIN_STALE: the settling that brings a chain's missing count to 3 (R38). -/
def execChainStale (n : ChainNo) (s : State) : Answered :=
  .next (if (settleRecord (s.chain n)).stale then s.settleOne n else s)

/-- CHAIN_ABSENT: the settling that brings a chain's missing count to 25 (R39). -/
def execChainAbsent (n : ChainNo) (s : State) : Answered :=
  .next (if (settleRecord (s.chain n)).absent then s.settleOne n else s)

/-! ### One cue at a field close (R56, R91, R92, R97) -/

/-- Whether the count of field f ends the confirmation of a FIRED cue (R92, R97). -/
def State.timesOut (s : State) (c : Cue) (f : Field) : Bool :=
  c.runtime.state == .fired && match s.confirmLimit c.fields with
    | some limit => judges c.runtime.effectField f && decide (limit ≤ min 30000 (c.runtime.confirmCount + 1))
    | none => c.runtime.deadlinePassed f

/-- A property of a LIVE cue that is there. -/
def State.liveHas (s : State) (id : CueId) (p : Cue → Bool) : Bool :=
  match s.liveCue id with
  | some c => p c
  | none => false

/-- CONFIRM_TIMEOUT: the field-close count of one FIRED cue that fails it (R92, R97). -/
def execConfirmTimeout (id : CueId) (s : State) : Answered :=
  .next (if s.liveHas id (fun c => s.timesOut c s.fieldCount) then s.carryOut [.countConfirm id s.fieldCount] else s)

/-- A failed verdict. -/
def Verdict.isWithheld : Verdict → Bool
  | .withheld _ => true
  | .completes => false
  | .passes => false

/-- Whether the recheck of a WITHHELD cue fails and brings its withhold count to the limit (R91). -/
def State.tooLong (s : State) (c : Cue) : Bool :=
  c.runtime.state == .withheld && (s.verdict c).isWithheld && decide (s.cues.limit ≤ c.runtime.withholdCount + 1)

/-- WITHHELD_TOO_LONG: the recheck of one WITHHELD cue that fails it (R91). -/
def execWithheldTooLong (id : CueId) (s : State) : Answered :=
  .next (if s.liveHas id s.tooLong then s.carryOut [.recheck id] else s)

/-- Whether the follow examination at the field close of field f finds a cue due (R56). -/
def State.followReached (s : State) (c : Cue) (f : Field) : Bool :=
  c.runtime.state == .armed && c.fields.release == .follow && match s.followedField c with
    | some fired => decide ((c.fields.offset : Int) ≤ ((f - fired).toNat : Int))
    | none => false

/-- FOLLOW_DUE: the follow examination of one cue that finds it due (R56). -/
def execFollowDue (id : CueId) (s : State) : Answered :=
  .next (if s.liveHas id (fun c => s.followReached c s.fieldCount) then s.carryOut [.follow id s.fieldCount] else s)

/-! ### One watch, and the dwell counter -/

/-- WATCH_LIMIT_REACHED: the sample of one watch that brings its count to the limit (R148 to R151). -/
def execWatchLimitReached (k : WatchNo) (s : State) : Answered :=
  .next (if s.reachesLimit s.watches.watches[k] then s.sampleWatch k else s)

/-- PERIODIC_SNAPSHOT: the dwell counter's rise to the dwell (R180). -/
def execPeriodicSnapshot (s : State) : Answered := .next (if s.snaps.dwellReached then s.periodicSnapshot else s)

end Sys2Proof.Machine
end

