-- ==== Sys2Proof/Machine/DeskCommands.lean ====
section
/-! DEFINITION. The meanings of the desk commands: each is received as R6 and R188 say, tested by R189 and R191, and answered. -/

namespace Sys2Proof.Machine

/-- LOAD CUE (R62 to R65). -/
def execLoadCue (params : List Byte) (s : State) : Answered := .next (s.deskCommand 0x01 params (some loadCue))

/-- DELETE CUE (R66). -/
def execDeleteCue (params : List Byte) (s : State) : Answered := .next (s.deskCommand 0x02 params (some deleteCue))

/-- CLEAR BANK (R67). -/
def execClearBank (params : List Byte) (s : State) : Answered := .next (s.deskCommand 0x03 params (some clearBank))

/-- SWAP (R68). -/
def execSwap (params : List Byte) (s : State) : Answered := .next (s.deskCommand 0x04 params (some swap))

/-- CANCEL SWAP (R71). -/
def execCancelSwap (params : List Byte) (s : State) : Answered := .next (s.deskCommand 0x05 params (some cancelSwap))

/-- ABANDON (R106). -/
def execAbandon (params : List Byte) (s : State) : Answered := .next (s.deskCommand 0x06 params (some abandon))

/-- TAKE (R81, R82). -/
def execTake (params : List Byte) (s : State) : Answered := .next (s.deskCommand 0x07 params (some take))

/-- ALL STOP (R105). -/
def execAllStop (params : List Byte) (s : State) : Answered := .next (s.deskCommand 0x08 params (some allStop))

/-- SET CHAIN (R21 to R23). -/
def execSetChain (params : List Byte) (s : State) : Answered := .next (s.deskCommand 0x10 params (some setChain))

/-- SET GROUP (R125, R126). -/
def execSetGroup (params : List Byte) (s : State) : Answered := .next (s.deskCommand 0x11 params (some setGroup))

/-- CLEAR FAULT (R31). -/
def execClearFault (params : List Byte) (s : State) : Answered := .next (s.deskCommand 0x12 params (some clearFault))

/-- SET PERMIT (R109). -/
def execSetPermit (params : List Byte) (s : State) : Answered := .next (s.deskCommand 0x13 params (some setPermit))

/-- SET WINDOW (R113). -/
def execSetWindow (params : List Byte) (s : State) : Answered := .next (s.deskCommand 0x14 params (some setWindow))

/-- CLEAR WINDOW (R113). -/
def execClearWindow (params : List Byte) (s : State) : Answered := .next (s.deskCommand 0x15 params (some clearWindow))

/-- SET WATCH (R155). -/
def execSetWatch (params : List Byte) (s : State) : Answered := .next (s.deskCommand 0x16 params (some setWatch))

/-- SET ALARM (R167). -/
def execSetAlarm (params : List Byte) (s : State) : Answered := .next (s.deskCommand 0x17 params (some setAlarm))

/-- SET ALM THRESHOLD (R169). -/
def execSetAlmThreshold (params : List Byte) (s : State) : Answered := .next (s.deskCommand 0x18 params (some setAlmThreshold))

/-- SET SNAPSHOT (R177). -/
def execSetSnapshot (params : List Byte) (s : State) : Answered := .next (s.deskCommand 0x19 params (some setSnapshot))

/-- SET REHEARSE (R103, R104). -/
def execSetRehearse (params : List Byte) (s : State) : Answered := .next (s.deskCommand 0x1A params (some setRehearse))

/-- SET WITHHOLD LIMIT (R53). -/
def execSetWithholdLimit (params : List Byte) (s : State) : Answered := .next (s.deskCommand 0x1B params (some setWithholdLimit))

/-- ACKNOWLEDGE (R166). -/
def execAcknowledge (params : List Byte) (s : State) : Answered := .next (s.deskCommand 0x20 params (some acknowledge))

/-- SNAP (R181). -/
def execSnap (params : List Byte) (s : State) : Answered := .next (s.deskCommand 0x21 params (some snap))

/-- READ SNAPSHOTS (R183). -/
def execReadSnapshots (params : List Byte) (s : State) : Answered := .next (s.deskCommand 0x22 params (some readSnapshots))

/-- READ STATUS (R196). -/
def execReadStatus (params : List Byte) (s : State) : Answered := .next (s.deskCommand 0x30 params (some readStatus))

/-- READ CHAIN (R197). -/
def execReadChain (params : List Byte) (s : State) : Answered := .next (s.deskCommand 0x31 params (some readChain))

/-- READ GROUP (R197). -/
def execReadGroup (params : List Byte) (s : State) : Answered := .next (s.deskCommand 0x32 params (some readGroup))

/-- READ CUE (R198). -/
def execReadCue (params : List Byte) (s : State) : Answered := .next (s.deskCommand 0x33 params (some readCue))

/-- READ BANK (R198). -/
def execReadBank (params : List Byte) (s : State) : Answered := .next (s.deskCommand 0x34 params (some readBank))

/-- READ WATCH (R199). -/
def execReadWatch (params : List Byte) (s : State) : Answered := .next (s.deskCommand 0x35 params (some readWatch))

/-- READ PERMIT (R199). -/
def execReadPermit (params : List Byte) (s : State) : Answered := .next (s.deskCommand 0x36 params (some readPermit))

/-- READ WINDOW (R199). -/
def execReadWindow (params : List Byte) (s : State) : Answered := .next (s.deskCommand 0x37 params (some readWindow))

/-- READ ALARMS (R200). -/
def execReadAlarms (params : List Byte) (s : State) : Answered := .next (s.deskCommand 0x38 params (some readAlarms))

/-- CLEAR (R201). -/
def execClear (params : List Byte) (s : State) : Answered := .next (s.deskCommand 0x3E params (some clear))

/-- RESET CONTROLLER (R202). -/
def execResetController (params : List Byte) (s : State) : Answered := .next (s.deskCommand 0x3F params (some resetController))

/-- A DESK COMMAND by its selector, one that names no command refused with UNKNOWN (R189). -/
def execUnknownSelector (selector : Byte) (params : List Byte) (s : State) : Answered :=
  .next (s.deskCommand selector params (handlerOf selector))

end Sys2Proof.Machine
end

