-- ==== Sys2Proof/Machine/Dispatch.lean ====
section
/-! DEFINITION. The dispatch: one arm for each command, each one call of its meaning. -/

namespace Sys2Proof.Machine

def exec (i : Instr) (s : State) : Host.Outcome State Fault Refusal :=
  match i with
  | .powerUp => Sys2Proof.Machine.execPowerUp s
  | .rstAssert => Sys2Proof.Machine.execRstAssert s
  | .fieldSyncArrival elapsed take hold => Sys2Proof.Machine.execFieldSyncArrival elapsed take hold s
  | .flywheelExpiry elapsed take hold => Sys2Proof.Machine.execFlywheelExpiry elapsed take hold s
  | .syncLoss => Sys2Proof.Machine.execSyncLoss s
  | .telegramFail chars => Sys2Proof.Machine.execTelegramFail chars s
  | .ignoredTelegram telegram => Sys2Proof.Machine.execIgnoredTelegram telegram s
  | .fieldHeadReturn field flags => Sys2Proof.Machine.execFieldHeadReturn field flags s
  | .roundEndReturn field take hold => Sys2Proof.Machine.execRoundEndReturn field take hold s
  | .loopLoss => Sys2Proof.Machine.execLoopLoss s
  | .ownTelegramReturn dest kind payload => Sys2Proof.Machine.execOwnTelegramReturn dest kind payload s
  | .chainReport unit dest payload => Sys2Proof.Machine.execChainReport unit dest payload s
  | .swapTaken => Sys2Proof.Machine.execSwapTaken s
  | .muxReport unit dest payload => Sys2Proof.Machine.execMuxReport unit dest payload s
  | .chainStale chain => Sys2Proof.Machine.execChainStale chain s
  | .chainAbsent chain => Sys2Proof.Machine.execChainAbsent chain s
  | .confirmTimeout id => Sys2Proof.Machine.execConfirmTimeout id s
  | .withheldTooLong id => Sys2Proof.Machine.execWithheldTooLong id s
  | .followDue id => Sys2Proof.Machine.execFollowDue id s
  | .watchLimitReached watch => Sys2Proof.Machine.execWatchLimitReached watch s
  | .periodicSnapshot => Sys2Proof.Machine.execPeriodicSnapshot s
  | .loadCue params => Sys2Proof.Machine.execLoadCue params s
  | .deleteCue params => Sys2Proof.Machine.execDeleteCue params s
  | .clearBank params => Sys2Proof.Machine.execClearBank params s
  | .swap params => Sys2Proof.Machine.execSwap params s
  | .cancelSwap params => Sys2Proof.Machine.execCancelSwap params s
  | .abandon params => Sys2Proof.Machine.execAbandon params s
  | .take params => Sys2Proof.Machine.execTake params s
  | .allStop params => Sys2Proof.Machine.execAllStop params s
  | .setChain params => Sys2Proof.Machine.execSetChain params s
  | .setGroup params => Sys2Proof.Machine.execSetGroup params s
  | .clearFault params => Sys2Proof.Machine.execClearFault params s
  | .setPermit params => Sys2Proof.Machine.execSetPermit params s
  | .setWindow params => Sys2Proof.Machine.execSetWindow params s
  | .clearWindow params => Sys2Proof.Machine.execClearWindow params s
  | .setWatch params => Sys2Proof.Machine.execSetWatch params s
  | .setAlarm params => Sys2Proof.Machine.execSetAlarm params s
  | .setAlmThreshold params => Sys2Proof.Machine.execSetAlmThreshold params s
  | .setSnapshot params => Sys2Proof.Machine.execSetSnapshot params s
  | .setRehearse params => Sys2Proof.Machine.execSetRehearse params s
  | .setWithholdLimit params => Sys2Proof.Machine.execSetWithholdLimit params s
  | .acknowledge params => Sys2Proof.Machine.execAcknowledge params s
  | .snap params => Sys2Proof.Machine.execSnap params s
  | .readSnapshots params => Sys2Proof.Machine.execReadSnapshots params s
  | .readStatus params => Sys2Proof.Machine.execReadStatus params s
  | .readChain params => Sys2Proof.Machine.execReadChain params s
  | .readGroup params => Sys2Proof.Machine.execReadGroup params s
  | .readCue params => Sys2Proof.Machine.execReadCue params s
  | .readBank params => Sys2Proof.Machine.execReadBank params s
  | .readWatch params => Sys2Proof.Machine.execReadWatch params s
  | .readPermit params => Sys2Proof.Machine.execReadPermit params s
  | .readWindow params => Sys2Proof.Machine.execReadWindow params s
  | .readAlarms params => Sys2Proof.Machine.execReadAlarms params s
  | .clear params => Sys2Proof.Machine.execClear params s
  | .resetController params => Sys2Proof.Machine.execResetController params s
  | .unknownSelector selector params => Sys2Proof.Machine.execUnknownSelector selector params s
  | .rstRelease => Sys2Proof.Machine.execRstRelease s
  | .roundEndShiftedOut => Sys2Proof.Machine.execRoundEndShiftedOut s

end Sys2Proof.Machine
end

