-- ==== Sys2Proof/Safety.lean ====
section
/-! DEFINITION. What a healthy state of the block is: the bounds and shapes that every step keeps. -/

namespace Sys2Proof.Machine

/-! ### The alarm unit (R158, R162 to R168) -/

/-- The recorded levels of the in-service list are strictly more urgent from bottom to top (R165). -/
def strictlyNested : List Entry → Bool
  | [] => true
  | e :: rest => rest.all (fun x => decide (e.level < x.level)) && strictlyNested rest

/-- The in-service list nests strictly and the ALM line is what R168 makes it. -/
def AlarmUnit.sound (a : AlarmUnit) : Bool := strictlyNested a.inService && a.alm == a.almWanted

/-! ### The snapshot buffer (R174, R176) -/

/-- The store holds at most 512 cells (R174). -/
def SnapshotBuffer.withinSize (b : SnapshotBuffer) : Bool := decide (cellsHeld b.store ≤ 512)

/-! ### The round master (R7 to R9, R12, R18, R191) -/

/-- The counts of the round master stay in their ranges (R8, R18), and classes 4 and 5 hold at most sixteen (R12, R191). -/
def RoundMaster.withinRange (r : RoundMaster) : Bool :=
  decide (r.flywheel ≤ 3) && decide (r.broken ≤ 3) && decide (r.notices.length ≤ 16) && decide (r.replies.length ≤ 16)

/-! ### The chain records (Table 2-2) -/

/-- The coast, missing and slip counts stay in their ranges (Table 2-2). -/
def ChainRecord.withinRange (r : ChainRecord) : Bool :=
  decide (r.coastCount ≤ 2) && decide (r.missingCount ≤ 25) && decide (r.slipCount ≤ 1)

/-- FAULTED and the fault cause go together (R26, R29). -/
def ChainRecord.faultSound (r : ChainRecord) : Bool := (r.state == .faulted) == (r.faultCause != .none)

/-- Every chain record is within its ranges. -/
def State.chainsSound (s : State) : Bool := allChains.all (fun n => (s.chain n).withinRange && (s.chain n).faultSound)

/-! ### The cue engine (R59) -/

/-- A bank holds no cue id twice (R59). -/
def bankSound (bank : List Cue) : Bool := decide (bank.map (fun c => c.fields.id)).Nodup

/-- Both banks are sound, with at most 64 cues each (R59). -/
def CueEngine.sound (e : CueEngine) : Bool :=
  bankSound e.live && bankSound e.preset && decide (e.live.length ≤ 64) && decide (e.preset.length ≤ 64)

/-- A cue that is ARMED or WITHHELD has only finished cues of its chain before it: it is its chain's head, and the only one of the
chain in such a state (R72). -/
def headed (live : List Cue) : Bool :=
  decide (live.Pairwise fun before c => before.fields.chain = c.fields.chain →
    c.runtime.state = .armed ∨ c.runtime.state = .withheld → before.runtime.state.finished = true)

/-- The LIVE bank is headed, and the cues of the PRESET bank have their entry values (R61, R72). -/
def CueEngine.inOrder (e : CueEngine) : Bool := headed e.live && e.preset.all (fun c => c.runtime == {})

/-- Eligibility and abandonment have been carried through: no chain's head is WAITING, and no follower of a FAILED or ABANDONED
LIVE cue is WAITING, ARMED or WITHHELD (R72, R73, R77, R80). -/
def CueEngine.settled (e : CueEngine) : Bool :=
  allChains.all (fun n => (headOf e.live n).all (fun c => c.runtime.state != .waiting))
    && e.live.all (fun c => !(c.runtime.state == .failed || c.runtime.state == .abandoned)
      || e.live.all (fun d => d.fields.follow != some c.fields.id || d.runtime.state.finished))

/-! ### What a command meets, in the terms the claims use -/

/-- A telegram is taken at all: RST is inactive (R19). -/
def State.receiving (s : State) : Bool := !s.rstActive

/-- A telegram is received in an open return window (R6, R15). -/
def State.inWindow (s : State) : Bool := s.receiving && s.windowOpen

/-- A desk command is processed: in an open window, with room for a reply (R188, R191). -/
def State.deskReady (s : State) : Bool := s.inWindow && decide (s.round.replies.length < 16)

/-- The state with the assembler awaiting the next telegram, as every received telegram leaves it (R4). -/
def State.listening (s : State) : State := s.setAssembler .awaitAddress

/-- The one reply of a command, queued at the tail of class 5 with the field count in force (R190). -/
def State.answered (s : State) (selector : Byte) (key : Option (BitVec 16)) (outcome : Option Reason) (data : List Byte) :
    State :=
  s.queueReplies [{ selector := selector, key := key, outcome := outcome, field := s.fieldCount, data := data }]

/-- The reply of a command whose work may have changed the field count or the queue: it carries the count of `before` (R190). -/
def State.repliedAt (s before : State) (selector : Byte) (key : Option (BitVec 16)) (data : List Byte) : State :=
  s.queueReplies [{ selector := selector, key := key, field := before.fieldCount, data := data }]

/-- How many bytes follow the selector of each command (Table 12-2, column Length less one). -/
def parameterCount (selector : Byte) : Option Nat :=
  match selector.toNat with
  | 0x01 => some 18 | 0x02 => some 3 | 0x03 => some 1 | 0x04 => some 0 | 0x05 => some 0 | 0x06 => some 2
  | 0x07 => some 0 | 0x08 => some 0 | 0x10 => some 9 | 0x11 => some 5 | 0x12 => some 1 | 0x13 => some 7
  | 0x14 => some 7 | 0x15 => some 1 | 0x16 => some 9 | 0x17 => some 3 | 0x18 => some 1 | 0x19 => some 7
  | 0x1A => some 1 | 0x1B => some 1 | 0x20 => some 1 | 0x21 => some 0 | 0x22 => some 1 | 0x30 => some 0
  | 0x31 => some 1 | 0x32 => some 1 | 0x33 => some 3 | 0x34 => some 1 | 0x35 => some 1 | 0x36 => some 1
  | 0x37 => some 1 | 0x38 => some 1 | 0x3E => some 0 | 0x3F => some 0
  | _ => none

/-- Every desk command that has a selector: the selector, and the command with the bytes after it (Tables 11-1 and 12-2). -/
def deskRows : List (Byte × (List Byte → Instr)) :=
  [(0x01, .loadCue), (0x02, .deleteCue), (0x03, .clearBank), (0x04, .swap), (0x05, .cancelSwap), (0x06, .abandon),
   (0x07, .take), (0x08, .allStop), (0x10, .setChain), (0x11, .setGroup), (0x12, .clearFault), (0x13, .setPermit),
   (0x14, .setWindow), (0x15, .clearWindow), (0x16, .setWatch), (0x17, .setAlarm), (0x18, .setAlmThreshold),
   (0x19, .setSnapshot), (0x1A, .setRehearse), (0x1B, .setWithholdLimit), (0x20, .acknowledge), (0x21, .snap),
   (0x22, .readSnapshots), (0x30, .readStatus), (0x31, .readChain), (0x32, .readGroup), (0x33, .readCue),
   (0x34, .readBank), (0x35, .readWatch), (0x36, .readPermit), (0x37, .readWindow), (0x38, .readAlarms), (0x3E, .clear),
   (0x3F, .resetController)]

/-- The chain is IDLE or CUED. -/
def ChainRecord.stopped (r : ChainRecord) : Prop := r.state = .idle ∨ r.state = .cued

/-- INCOMING READY as R58 states it: not stale, and AT-SPEED, or in RUN-UP with its expected field at most two fields ahead. -/
def State.readyFor (s : State) (n : ChainNo) : Prop :=
  (s.chain n).stale = false
    ∧ ((s.chain n).state = .atSpeed
      ∨ (s.chain n).state = .runUp
        ∧ ∃ e, (s.chain n).commanded.motion = .run e ∧ 0 ≤ fieldDiff (s.fieldCount + 2) e)

/-- A window of chain n is active at a frame, with an effect that has the property (R114). -/
def State.windowCovers (s : State) (n : ChainNo) (frame : Frame) (wanted : WindowEffect → Prop) : Prop :=
  (s.chain n).state ≠ .absent
    ∧ ∃ (w : WindowNo) (x : Window), s.windows[w] = some x ∧ x.chain = n ∧ x.first.toNat ≤ frame.toNat
      ∧ frame.toNat ≤ x.last.toNat ∧ wanted x.effect

/-- A cue's effect field is not later than field f, so that an arrival, a report or a close of field f counts for it (R92, R132). -/
def CueRuntime.inEffect (r : CueRuntime) (f : Field) : Prop := ∃ e, r.effectField = some e ∧ 0 ≤ fieldDiff f e

/-- A cue that R72 does not call finished: WAITING, ARMED or WITHHELD. -/
def Cue.unfinished (c : Cue) : Prop := c.runtime.state = .waiting ∨ c.runtime.state = .armed ∨ c.runtime.state = .withheld

/-- The head of a chain as R72 states it: its earliest unfinished cue in the bank. -/
def isHead (live : List Cue) (n : ChainNo) (c : Cue) : Prop :=
  ∃ front back, live = front ++ c :: back ∧ c.fields.chain = n ∧ c.unfinished
    ∧ ∀ b ∈ front, b.fields.chain = n → ¬ b.unfinished

/-- The state and failure cause of a LIVE cue. -/
def State.fateOf (s : State) (id : CueId) : Option (CueState × FailureCause) :=
  (s.liveCue id).map (fun c => (c.runtime.state, c.runtime.cause))

/-- A source stands with the alarm unit: pending, or in service (R160, R164). -/
def State.alarmStands (s : State) (src : Source) : Bool := s.alarms.isPending src || s.alarms.isInService src

/-- A chain record without its commanded part, which the cue engine owns (R42). -/
def ChainRecord.tracked (r : ChainRecord) : ChainRecord := { r with commanded := {} }

/-! ### Frames: what a command may write besides what is said of it -/

/-- At most the alarm unit, the snapshots it asks for and the notices of class 4 differ (R160 to R164, R170). -/
def AlarmsOnly (s t : State) : Prop :=
  t = { s with
    round := { s.round with notices := t.round.notices }
    alarms := { s.alarms with pending := t.alarms.pending, inService := t.alarms.inService, alm := t.alarms.alm }
    snaps := { s.snaps with store := t.snaps.store, almostFull := t.snaps.almostFull } }

/-- At most what the cue engine writes in handling a change differs: the runtime of the cues and their banks, action sets and the
placed list, commanded parts, changeovers in flight, and what alarms and snapshots follow (R70, R77, R88, R131). -/
def CuesOnly (s t : State) : Prop :=
  (∀ n, (t.chain n).tracked = (s.chain n).tracked)
    ∧ t = { s with
        round := { s.round with sets := t.round.sets, placed := t.round.placed, notices := t.round.notices }
        chains := t.chains
        cues := { s.cues with live := t.cues.live, preset := t.cues.preset, swapPending := t.cues.swapPending }
        groupA := { s.groupA with inFlight := t.groupA.inFlight }
        groupB := { s.groupB with inFlight := t.groupB.inFlight }
        alarms := { s.alarms with pending := t.alarms.pending, inService := t.alarms.inService, alm := t.alarms.alm }
        snaps := { s.snaps with store := t.snaps.store, almostFull := t.snaps.almostFull } }

/-- At most what a change of a chain record brings differs: besides what the cue engine writes, the record itself, the update fields,
and the air holders with the causes of their tenures (R40, R41, R128, R135). -/
def TrackingOnly (s t : State) : Prop :=
  t = { s with
    round := { s.round with sets := t.round.sets, placed := t.round.placed, notices := t.round.notices }
    chains := t.chains
    cues := { s.cues with
      live := t.cues.live, preset := t.cues.preset, swapPending := t.cues.swapPending, updateField := t.cues.updateField }
    groupA := { s.groupA with holder := t.groupA.holder, causes := t.groupA.causes, inFlight := t.groupA.inFlight }
    groupB := { s.groupB with holder := t.groupB.holder, causes := t.groupB.causes, inFlight := t.groupB.inFlight }
    alarms := { s.alarms with pending := t.alarms.pending, inService := t.alarms.inService, alm := t.alarms.alm }
    snaps := { s.snaps with store := t.snaps.store, almostFull := t.snaps.almostFull } }

/-- The configuration of every block is the same, and so is what waits outside. -/
def ConfigurationKept (s t : State) : Prop :=
  (∀ n, (t.chain n).config = (s.chain n).config) ∧ t.permits = s.permits ∧ t.windows = s.windows
    ∧ (∀ g, (t.group g).map = (s.group g).map) ∧ t.alarms.settings = s.alarms.settings
    ∧ t.alarms.threshold = s.alarms.threshold ∧ t.snaps.settings = s.snaps.settings ∧ t.cues.limit = s.cues.limit
    ∧ t.cues.rehearse = s.cues.rehearse ∧ t.pending = s.pending ∧ t.inputs = s.inputs

/-! ### Characters and samples in a row -/

/-- Characters that reach the assembler one after another, and the telegrams it hands on, in order (R4). -/
def feed : Assembler → List RxChar → Assembler × List Telegram
  | a, [] => (a, [])
  | a, c :: rest =>
    let r := assemble a c
    let t := feed r.1 rest
    (t.1, r.2.toList ++ t.2)

/-- Good characters with no gap between them. -/
def goodChars (bytes : List Byte) : List RxChar := bytes.map (fun b => { gap := 0, data := b, bad := false })

/-- The levels of one character on the line, sixteen samples to a bit (R1, R2). -/
def charLevels (b : Byte) : List Bool := (List.range 11).flatMap (fun i => List.replicate 16 (lineBit b i))

/-- The receiver over a run of samples, from its filtered level, last sample and phase: the characters it makes (R2, R3). -/
def rxRun : Bool → Bool → RxPhase → List Bool → List RxChar
  | _, _, _, [] => []
  | filtered, last, phase, x :: rest =>
    let level := twoSample filtered last x
    let r := rxStep phase level (filtered && !level) 0
    r.character.toList ++ rxRun level x r.phase rest

/-! ### The whole block -/

/-- The state of a healthy block. -/
def State.sound (s : State) : Bool :=
  s.alarms.sound && s.snaps.withinSize && s.round.withinRange && s.chainsSound && s.cues.sound && s.cues.inOrder
    && s.cues.settled

end Sys2Proof.Machine
end

