-- ==== Sys2Proof/Certificates/Slice0/Obligations.lean ====
section
/-! DEFINITION. The statements about the block, for the provers. -/

open Sys2Proof Sys2Proof.Machine

/-! ### The step and the queue -/

/-- A step carries out the command at the front of the queue on the state with the rest of the queue. -/
def Obligations.StepRunsTheFrontCommand : Prop :=
  ∀ (s : State) (c : Instr) (rest : List Instr),
    s.pending = c :: rest → step s = exec c { s with pending := rest }

/-- Every command answers a next state that has the same queue and the same levels still to come; time does not run back. -/
def Obligations.CommandsLeaveTheQueueAlone : Prop :=
  ∀ (c : Instr) (s : State),
    ∃ t, exec c s = .next t ∧ t.pending = s.pending ∧ t.inputs = s.inputs ∧ s.now ≤ t.now

/-! ### Resets -/

/-- POWER_UP, RST_ASSERT, RST_RELEASE of an active line, RESET CONTROLLER and a change of RST found by an idle sample period each
leave every block at its reset values (R19, R76, R107, R172, R187, R202, R203); while RST is active an idle period moves only the
clock and the shifter. What stays outside the blocks (log 21), the last stop bit's end at the present instant and the first levels
of the line and FLD filters (log 22), and the idle sample period (log 2) are the model's choices. -/
def Obligations.FullResetCommandsResetEveryBlock : Prop :=
  ∀ s : State,
    let resetWith (pins : Pins) : State :=
      { State.reset with
        port := { State.reset.port with lastStopEnd := s.now }, pins := pins, now := s.now, inputs := s.inputs,
        choices := s.choices, pending := s.pending }
    exec .powerUp s = .next (resetWith s.pins)
      ∧ exec .rstAssert s = .next (resetWith { s.pins with rst := false })
      ∧ (s.rstActive = true → exec .rstRelease s = .next (resetWith { s.pins with rst := true }))
      ∧ (s.rstActive = false → exec .rstRelease s = .next s)
      ∧ (s.deskReady = true → exec (.resetController []) s = .next (resetWith s.pins))
      ∧ (∀ pins rest, s.pending = [] → s.inputs = pins :: rest → pins.rst ≠ s.pins.rst →
          step s = .next { State.reset with
            port := { State.reset.port with lastStopEnd := s.now + 1 }, pins := pins, now := s.now + 1, inputs := rest,
            choices := s.choices })
      ∧ (s.pending = [] → s.inputs = [] → s.rstActive = true →
          ∃ shifter, step s = .next { s with now := s.now + 1, port := { s.port with shifter := shifter } })
      ∧ (∀ pins rest, s.pending = [] → s.inputs = pins :: rest → s.rstActive = true → pins.rst = false →
          ∃ shifter, step s
            = .next { s with now := s.now + 1, port := { s.port with shifter := shifter }, pins := pins, inputs := rest })
/-- The state after reset is sound. -/
def Obligations.ResetStateIsSound : Prop := State.reset.sound = true

/-! ### What every step keeps -/

/-- The in-service list stays strictly nested and the ALM line stays what R168 makes it, whatever the step (R158, R168). Nested: the
recorded level of each entry is more urgent than that of every entry beneath (R165). The line: active exactly when AIR FAULT is
pending or in service, or an unmasked pending source by its setting, or an entry by its recorded level, is at or more urgent than
the threshold (R157, R168). -/
def Obligations.StepKeepsAlarmsNestedAndLineRight : Prop :=
  (∀ s t : State, s.alarms.sound = true → step s = .next t → t.alarms.sound = true)
    ∧ (∀ a : AlarmUnit,
        let urgent (level : Level) : Prop := level.val ≤ a.threshold.val
        (a.sound = true ↔
            a.inService.Pairwise (fun above below => above.level.val < below.level.val) ∧ a.alm = a.almWanted)
          ∧ (a.almWanted = true ↔
              (∃ p, a.pending[srcAirFault] = some p) ∨ (∃ e ∈ a.inService, e.source = srcAirFault)
                ∨ (∃ (src : Source) (p : PendingRecord), a.pending[src] = some p ∧ src ≠ srcAirFault
                    ∧ a.settings[src].masked = false ∧ urgent a.settings[src].level)
                ∨ (∃ e ∈ a.inService, urgent e.level))
          ∧ (∀ src, a.level src = (if src = srcAirFault then 0 else a.settings[src].level)
              ∧ (a.masked src = true ↔ src ≠ srcAirFault ∧ a.settings[src].masked = true)))

/-- The counts of every chain record stay in their ranges, and FAULTED and its cause stay together (Table 2-2). -/
def Obligations.StepKeepsChainRecordsInRange : Prop :=
  ∀ s t : State, s.chainsSound = true → step s = .next t → t.chainsSound = true

/-- The snapshot store never holds more than 512 cells, the flywheel and broken counts stay at most 3, and classes 4 and 5 never
hold more than sixteen (R8, R12, R18, R174, R191). -/
def Obligations.StepKeepsStoreAndQueuesInBounds : Prop :=
  ∀ s t : State, s.snaps.withinSize = true → s.round.withinRange = true → step s = .next t →
    t.snaps.withinSize = true ∧ t.round.withinRange = true

/-- No bank comes to hold a cue id twice or more than 64 cues (R59), and in LIVE every cue that is ARMED or WITHHELD stays behind
finished cues of its chain only, so that a chain has at most one such cue, its head (R72), while PRESET cues keep their entry
values (R61). A bank all of whose chains have had their eligibility computed stays so after every step, whatever has changed: no
chain's head is left WAITING (R72, R73; a FIRED cue does not hold its chain, log 5), and no follower of a FAILED or ABANDONED LIVE
cue is left WAITING, ARMED or WITHHELD (R77, R80; one of a cue that failed after it fired included, log 48). -/
def Obligations.StepKeepsBanksWellFormed : Prop :=
  ∀ s t : State, s.cues.sound = true → step s = .next t →
    t.cues.sound = true ∧ (s.cues.inOrder = true → t.cues.inOrder = true)
      ∧ (s.cues.inOrder = true → s.cues.settled = true → t.cues.settled = true)
/-- The handling of one event by the cue engine always ends: nothing is ever left undone for want of steps. The tasks of an event are
carried out in order, what a task brings before what stands behind it (R73, R77), and a task that takes the swap drops what stood
behind it (R70). -/
def Obligations.CueTasksAreAllCarriedOut : Prop :=
  ∀ s : State, s.cues.sound = true →
    (∀ tasks, (runTasks (s.cues.fuel tasks) s tasks).2 = [])
      ∧ s.carryOut [] = s
      ∧ (∀ task rest,
          let e := s.runTask task
          s.carryOut (task :: rest) = e.state.carryOut (e.tasks ++ if e.swapped then [] else rest))

/-! ### Loop port -/

/-- Characters sent back to back on the line are received as the same bytes, in order (R1, R2). charLevels stands for what Shifter.ltx
shows over the sample periods of a round, and rxRun for what State.sampleReceiver does from one idle sample period to the next;
both are tied here to the shifter and to the step on an empty queue (logs 1 and 2), FLD steady and no interval kept. -/
def Obligations.ReceiverReadsWhatShifterSends : Prop :=
  (∀ bytes : List Byte, rxRun true true .waiting (bytes.flatMap charLevels) = goodChars bytes)
    ∧ (∀ (bytes : List Byte) (i : Nat), i < 176 * bytes.length →
        (bytes.flatMap charLevels)[i]? = some (shiftOut [bytes] i).ltx)
    ∧ (∀ (s : State) (pins : Pins) (rest : List Pins),
        s.pending = [] → s.inputs = pins :: rest → s.rstActive = false → pins.rst = true →
        s.round.fldFiltered = true → s.round.fldSample = true → pins.fld = true → s.round.keptInterval = none →
          let level := twoSample s.port.filtered s.port.lastSample pins.lrx
          let r := rxStep s.port.phase level (s.port.filtered && !level) (s.now + 1 - s.port.lastStopEnd)
          let u := s.elapse 1
          let sampled : State := { u with
            pins := pins, inputs := rest
            port := { u.port with
              filtered := level, lastSample := pins.lrx, phase := r.phase,
              lastStopEnd := if r.character.isSome then s.now + 9 else s.port.lastStopEnd } }
          (r.character = none → step s = .next sampled)
            ∧ (∀ c, r.character = some c → step s = .next (sampled.takeChar c)))
/-- The bytes of telegrams sent back to back are assembled into the same telegrams, in order, and nothing else (R4, R204). -/
def Obligations.AssemblerReadsWhatIsSent : Prop :=
  ∀ train : List Telegram, (∀ t ∈ train, t.payload.length ≤ 24) →
    feed .awaitAddress (goodChars (train.flatMap telegramBytes)) = (.awaitAddress, train)

/-- TELEGRAM_FAIL, by the rows of R5: a bad character discards its telegram, and leaves the assembler in HUNT when it was the
length byte, else awaiting an address; a length byte above 24 leaves HUNT, a check byte that is not the exclusive-or of the
bytes before it leaves it awaiting an address; the first character after a gap of more than 352 samples inside a telegram is
taken as an address byte, as if what stood before it had not come. A gap up to 352 samples, and any gap between two telegrams,
is none. In HUNT every character is dropped until such a gap, and the one after it is taken as an address byte (R4). With RST
active they are dropped (R19). The last stop bit ends now (log 30). -/
def Obligations.BadCharacterDiscardsItsTelegram : Prop :=
  ∀ s : State, s.rstActive = false → s.port.assembler = .awaitAddress →
    let leaves (chars : List RxChar) (a : Assembler) : Prop :=
      exec (.telegramFail chars) s = .next (s.noteStop.setAssembler a)
    (∀ (t : Telegram) (i : Nat) (data : Byte), t.payload.length ≤ 24 → i < telegramChars t →
        leaves ((goodChars (telegramBytes t)).set i { gap := 0, data := data, bad := true })
          (if i = 2 then .hunt else .awaitAddress))
      ∧ (∀ (address kind length : Byte) (rest : List RxChar), 24 < length.toNat → (∀ c ∈ rest, c.gap ≤ 352) →
        leaves (goodChars [address, kind, length] ++ rest) .hunt)
      ∧ (∀ (t : Telegram) (check : Byte), t.payload.length ≤ 24 →
        check ≠ ((telegramBytes t).take (telegramChars t - 1)).foldl (· ^^^ ·) 0 →
          leaves (goodChars ((telegramBytes t).take (telegramChars t - 1) ++ [check])) .awaitAddress)
      ∧ (∀ (t : Telegram) (i : Nat) (c : RxChar) (rest : List RxChar), t.payload.length ≤ 24 → i < telegramChars t →
        352 < c.gap →
          exec (.telegramFail (goodChars ((telegramBytes t).take i) ++ c :: rest)) s = exec (.telegramFail (c :: rest)) s)
      ∧ (∀ c : RxChar, leaves [c] (.inTelegram [c.data] c.bad))
      ∧ (∀ (c : RxChar) (chars : List RxChar), (∀ x ∈ chars, x.gap ≤ 352) →
        exec (.telegramFail (c :: chars)) s
          = exec (.telegramFail ((c :: chars).map (fun x => { x with gap := 0 }))) s)
      ∧ (∀ (dropped : List RxChar) (c : RxChar) (rest : List RxChar), (∀ x ∈ dropped, x.gap ≤ 352) → 352 < c.gap →
        exec (.telegramFail dropped) (s.setAssembler .hunt) = .next (s.noteStop.setAssembler .hunt)
          ∧ exec (.telegramFail (dropped ++ c :: rest)) (s.setAssembler .hunt) = exec (.telegramFail (c :: rest)) s)
      ∧ (∀ chars : List RxChar,
        let held : State := { s with pins := { s.pins with rst := false } }
        exec (.telegramFail chars) held = .next held)

/-- IGNORED_TELEGRAM: with no window open every telegram but a FIELD HEAD of the controller is discarded; with one open, a telegram
from a station of no use, a wrong kind or destination from a chain unit, a multiplexer or the desk, and a second report of one
station (R6). -/
def Obligations.UselessTelegramsAreDiscarded : Prop :=
  ∀ (s : State) (t : Telegram), s.receiving = true →
    let discarded := exec (.ignoredTelegram t) s = .next s.listening
    (s.windowOpen = false → ¬ (t.src = 0 ∧ t.kind = kindFieldHead) → discarded)
      ∧ (s.windowOpen = true → t.src = 11 ∨ t.src = 12 ∨ t.src = 13 ∨ t.src = 15 → discarded)
      ∧ (s.windowOpen = true → 1 ≤ t.src.toNat → t.src.toNat ≤ 8 →
          t.kind ≠ kindChainReport ∨ (t.dest ≠ 0 ∧ t.dest ≠ 15) → discarded)
      ∧ (s.windowOpen = true → t.src = 9 ∨ t.src = 10 → t.kind ≠ kindMuxReport ∨ (t.dest ≠ 0 ∧ t.dest ≠ 15) → discarded)
      ∧ (s.windowOpen = true → t.src = 14 → t.kind ≠ kindDeskCommand ∨ t.dest ≠ 0 → discarded)
      ∧ (s.windowOpen = true → 1 ≤ t.src.toNat → t.src.toNat ≤ 10 → t.src ∈ s.round.reported → discarded)
      ∧ (∀ n dest payload, s.windowOpen = true → chainAddress n ∈ s.round.reported →
          exec (.chainReport (chainAddress n) dest payload) s = .next s.listening)
      ∧ (∀ g dest payload, s.windowOpen = true → groupAddress g ∈ s.round.reported →
          exec (.muxReport (groupAddress g) dest payload) s = .next s.listening)
/-- ROUND_END_SHIFTED_OUT: the round being sent leaves the shifter when its characters' time has passed; nothing else changes but
the clock (R1). -/
def Obligations.ShifterFinishesTheRound : Prop :=
  ∀ (s : State) (round : List Byte) (rest : List (List Byte)),
    s.port.shifter.rounds = round :: rest → s.port.shifter.position ≤ 176 * round.length → (∀ r ∈ rest, r ≠ []) →
      exec .roundEndShiftedOut s
        = .next { s with
            now := s.now + (176 * round.length - s.port.shifter.position)
            port := { s.port with shifter := { rounds := rest, position := 0 } } }

/-! ### Rounds, field sync and the flywheel -/

/-- FIELD_SYNC_ARRIVAL: LOCKED ignores a sync less than three-quarters of the kept interval after the last launch; any other is
accepted, launches a round, and sets sync state, kept interval, reference and flywheel count as the table of R7 says (R7, R10). In
an idle sample period, LRX idle and no flywheel expiry due, a first low sample of FLD does nothing yet, and a second makes the
filtered FLD fall and is this command of one period (log 2). The elapsed operand, and what stands still while it passes, are the
model's choices (logs 1 and 39). -/
def Obligations.FieldSyncFollowsItsTable : Prop :=
  (∀ (s : State) (n : Nat) (take hold : Contact), s.rstActive = false →
    let now := s.now + n
    let early : Prop := s.round.sync = .locked ∧ ∃ i l, s.round.keptInterval = some i ∧ s.round.lastLaunch = some l
      ∧ 4 * (now - l) < 3 * i
    let learnt (r : Nat) : Prop := s.round.reference = some r ∧ 1 ≤ now - r ∧ now - r ≤ 1048575
    (early → exec (.fieldSyncArrival n take hold) s = .next ((s.setContacts take hold).elapse n))
      ∧ (¬ early →
        ∃ t, exec (.fieldSyncArrival n take hold) s = .next t
          ∧ t.now = now ∧ t.round.fieldCount = s.round.fieldCount + 1 ∧ t.round.phase = .awaited
          ∧ t.round.reference = some now ∧ t.round.lastLaunch = some now ∧ t.round.flywheel = 0
          ∧ (s.round.sync = .unlocked ∨ s.round.sync = .lost →
              t.round.sync = .learning ∧ t.round.keptInterval = s.round.keptInterval)
          ∧ (∀ r, s.round.sync = .learning ∨ s.round.sync = .locked → learnt r →
              t.round.sync = .locked ∧ t.round.keptInterval = some (now - r))
          ∧ (s.round.sync = .learning ∨ s.round.sync = .locked → (¬ ∃ r, learnt r) →
              t.round.sync = s.round.sync ∧ t.round.keptInterval = s.round.keptInterval)
          ∧ ConfigurationKept s t))
    ∧ (∀ (s : State) (pins : Pins) (rest : List Pins),
        s.pending = [] → s.inputs = pins :: rest → s.rstActive = false → pins.rst = true →
        s.round.fldFiltered = true → pins.fld = false →
        s.port.phase = .waiting → s.port.filtered = true → s.port.lastSample = true → pins.lrx = true →
        (¬ ∃ i l, s.round.keptInterval = some i ∧ s.round.lastLaunch = some l ∧ 5 * i ≤ 4 * (s.now + 1 - l)) →
          (s.round.fldSample = true →
            step s = .next { s.elapse 1 with pins := pins, inputs := rest, round := { s.round with fldSample := false } })
            ∧ (s.round.fldSample = false →
              step s
                = exec (.fieldSyncArrival 1 (levelContact pins.take) (levelContact pins.hold))
                    { s with pins := pins, inputs := rest, round := { s.round with fldFiltered := false } }))
/-- FLYWHEEL_EXPIRY falls at the first sample period, from the present one on, that is one and a quarter kept intervals or more after
the last launch (R8, log 9): a round is launched then, the reference cleared and the count raised, to SYNC LOSS at 3 (R8, R9), the
launch before the count (log 38); the launch is that of R11 and R17, whatever became of the round before. A command whose elapsed
time ends before that instant, or with no kept interval or no launch to count from, lets its time pass and nothing expires (R8, logs
1, 9); while RST is active nothing expires (R19). While the command's time passes the clock and the shifter alone move (log 39). An
idle sample period that brings that instant, FLD and LRX idle, is this command of one period (log 2). -/
def Obligations.FlywheelExpiryLaunchesARound : Prop :=
  ∀ (s : State) (n : Nat) (take hold : Contact),
    let passed (k : Nat) : State := (s.setContacts take hold).elapse k
    (s.round.keptInterval = none ∨ s.round.lastLaunch = none → exec (.flywheelExpiry n take hold) s = .next (passed n))
      ∧ (s.rstActive = true → ∃ k, k ≤ n ∧ exec (.flywheelExpiry n take hold) s = .next (passed k))
      ∧ (∀ i l : Nat, s.rstActive = false → s.round.keptInterval = some i → s.round.lastLaunch = some l → l ≤ s.now →
        (4 * (s.now + n - l) < 5 * i → exec (.flywheelExpiry n take hold) s = .next (passed n))
          ∧ (5 * i ≤ 4 * (s.now + n - l) →
            ∃ t, exec (.flywheelExpiry n take hold) s = .next t
              ∧ t.round.fieldCount = s.round.fieldCount + 1 ∧ t.round.reference = none
              ∧ t.round.keptInterval = some i ∧ t.round.lastLaunch = some t.now ∧ t.round.phase = .awaited
              ∧ t.round.flywheel = (if s.round.flywheel = 2 then 3 else min 3 (s.round.flywheel + 1))
              ∧ t.round.sync = (if s.round.flywheel = 2 then .lost else s.round.sync)
              ∧ s.now ≤ t.now ∧ t.now ≤ s.now + n
              ∧ 5 * i ≤ 4 * (t.now - l)
              ∧ (s.now < t.now → 4 * (t.now - 1 - l) < 5 * i)
              ∧ (let launched := (passed (t.now - s.now)).launch
                 t = State.countFlywheel { launched with round := { launched.round with reference := none } })
              ∧ ConfigurationKept s t)
          ∧ (∀ (pins : Pins) (rest : List Pins), s.pending = [] → s.inputs = pins :: rest → pins.rst = true →
              s.round.fldFiltered = true → s.round.fldSample = true → pins.fld = true →
              s.port.phase = .waiting → s.port.filtered = true → s.port.lastSample = true → pins.lrx = true →
              4 * (s.now - l) < 5 * i → 5 * i ≤ 4 * (s.now + 1 - l) →
                step s = exec (.flywheelExpiry 1 (levelContact pins.take) (levelContact pins.hold))
                  { s with pins := pins, inputs := rest }))
/-- SYNC_LOSS and LOOP_LOSS: at the third flywheel round or broken round the alarm is raised, and its source stands pending or in
service (R9, R18). -/
def Obligations.ThirdMissDeclaresTheLoss : Prop :=
  ∀ s : State,
    (s.syncLossNext = true → ∃ t, exec .syncLoss s = .next t ∧ t.alarmStands srcSyncLoss = true
        ∧ AlarmsOnly { s with round := { s.round with flywheel := 3, sync := .lost } } t)
      ∧ (s.round.broken = 2 → ∃ t, exec .loopLoss s = .next t ∧ t.alarmStands srcLoopLoss = true
        ∧ AlarmsOnly { s with round := { s.round with broken := 3 } } t)

/-- A round starts with FIELD HEAD f and its three flags, ends with ROUND END f, and takes at most 128 characters; between them
stand ALL STOP, then sets, notices and replies, each class from its oldest while the next item fits in 115 characters, then
SNAPSHOT DATA: what the buffer builds in the space left and, while space remains, at a second request; the buffer that the last
build leaves is the one kept, almost full is judged on it, and afterwards the launch only adds snapshots (R11 to R13, R182,
R184). An accepted sync launches it: the shifter gets the bytes, the placed list the actions, what did not fit keeps waiting
(R11, R16); the elapsed operand and what stands still while it passes (logs 1, 39), the reference a sync leaves (log 8) and SYNC
LOSS withdrawn before the launch (log 38) are the model's choices. Each set left waiting is deferred: late, a field more of
shortfall and of effect field, CUE LATE unless masked (R14, R89, R117; the clause on deferrals for a round before that has
completed); that the deferrals are reported after the whole filling, in queue order, and after almost full is judged, is the
model's choice (log 16). A launch that finds the round before awaited or its window open closes that round's field as a broken
one: the broken count rises, holding at 3, its rise from 2 raises LOOP LOSS, every chain is settled, and the works of the field
close follow, in an order that is the model's choice, on the deferrals already reported (R11, R15, R17, R18, R36; logs 4, 11,
13, 16, 17, 33). -/
def Obligations.RoundKeepsTheBudget : Prop :=
  (∀ s : State,
    (s.roundTelegrams.map telegramChars).sum ≤ 128
      ∧ s.roundTelegrams.head?
          = some (fieldHeadTelegram (s.fieldCount + 1) s.cues.rehearse s.alarms.alm s.cues.swapPending)
      ∧ s.roundTelegrams.getLast? = some (roundEndTelegram (s.fieldCount + 1))
      ∧ (∃ (k j m : Nat) (data : List Telegram),
          let stop := if s.round.allStop then [allStopTelegram] else []
          let sets (i : Nat) := (s.round.sets.take i).flatMap ActionSet.telegrams
          let notices (i : Nat) := (s.round.notices.take i).map noticeTelegram
          let replies (i : Nat) := (s.round.replies.take i).map replyTelegram
          let chars (l : List Telegram) : Nat := (l.map telegramChars).sum
          s.roundTelegrams
              = fieldHeadTelegram (s.fieldCount + 1) s.cues.rehearse s.alarms.alm s.cues.swapPending
                :: (stop ++ sets k ++ notices j ++ replies m ++ data) ++ [roundEndTelegram (s.fieldCount + 1)]
            ∧ data.length ≤ 2 ∧ (∀ d ∈ data, d.kind = kindSnapshotData)
            ∧ (let left := 115 - chars (stop ++ sets k ++ notices j ++ replies m)
              (s.snaps.build left = none → data = [] ∧ s.fixRound.snaps = s.snaps)
                ∧ (∀ x, s.snaps.build left = some x →
                    let after := left - telegramChars x.telegram
                    (after = 0 ∨ x.buffer.build after = none → data = [x.telegram] ∧ s.fixRound.snaps = x.buffer)
                      ∧ (∀ y, 0 < after → x.buffer.build after = some y →
                          data = [x.telegram, y.telegram] ∧ s.fixRound.snaps = y.buffer)))
            ∧ (k < s.round.sets.length → 115 < chars (stop ++ sets (k + 1)))
            ∧ (j < s.round.notices.length → 115 < chars (stop ++ sets k ++ notices (j + 1)))
            ∧ (m < s.round.replies.length → 115 < chars (stop ++ sets k ++ notices j ++ replies (m + 1)))
            ∧ s.fixRound.round.placed
                = (s.round.sets.take k).flatMap (fun a => a.telegrams.map (fun x => { telegram := x, cue := a.cue }))
            ∧ s.fixRound.round.sets = s.round.sets.drop k
            ∧ s.fixRound.round.notices = s.round.notices.drop j
            ∧ s.fixRound.round.replies = s.round.replies.drop m
            ∧ s.fixRound.round.allStop = false))
    ∧ (∀ (s : State) (n : Nat) (take hold : Contact),
        let u := (s.setContacts take hold).elapse n
        s.rstActive = false → u.syncIgnored = false →
          exec (.fieldSyncArrival n take hold) s = .next (u.noteSync.withdraw srcSyncLoss).launch)
    ∧ (∀ s : State,
        s.launch.port = { s.port with shifter := { s.port.shifter with
            rounds := s.port.shifter.rounds ++ [s.roundTelegrams.flatMap telegramBytes] } }
          ∧ s.fixRound.reportFixing
              = (s.fixRound.round.sets.map ActionSet.cue).foldl State.deferCue s.fixRound.judgeAlmostFull
          ∧ s.launch.snaps.readout = s.fixRound.snaps.readout ∧ s.fixRound.snaps.store <+: s.launch.snaps.store
          ∧ s.launch.snaps.settings = s.snaps.settings
          ∧ (s.round.phase = .noRound ∨ s.round.phase = .complete →
              s.launch = s.fixRound.reportFixing
                ∧ s.launch.round.placed = s.fixRound.round.placed ∧ s.launch.round.sets = s.fixRound.round.sets
                ∧ s.launch.round.replies = s.fixRound.round.replies ∧ s.launch.round.allStop = false
                ∧ (∀ id c, s.liveCue id = some c →
                    let count := (s.launch.round.sets.filter (fun a => a.cue == id)).length
                    (count = 0 → s.launch.liveCue id = some c)
                      ∧ (0 < count →
                          s.launch.liveCue id
                              = some { c with runtime := { c.runtime with
                                  late := true
                                  shortfall := min 255 (c.runtime.shortfall + count)
                                  effectField := if c.runtime.state = .fired then
                                      c.runtime.effectField.map (· + BitVec.ofNat 16 count)
                                    else c.runtime.effectField } }
                            ∧ (s.lateMasked c.fields.chain = false → s.launch.alarmStands srcCueLate = true))))
          ∧ (s.round.phase = .awaited ∨ s.round.phase = .windowOpen →
              let f := s.round.fieldCount
              let settled := s.fixRound.reportFixing.settleChains f
              s.launch.round.fieldCount = f + 1 ∧ s.launch.round.phase = .awaited
                ∧ s.launch.round.broken = min 3 (s.round.broken + 1)
                ∧ (s.round.broken = 2 → s.launch.alarmStands srcLoopLoss = true)
                ∧ (s.round.broken ≠ 2 → s.launch.alarmStands srcLoopLoss = s.alarmStands srcLoopLoss)
                ∧ (∀ n, (s.launch.chain n).tracked = (settleRecord (s.chain n)).record.tracked)
                ∧ s.launch.take = s.take.sample (levelContact s.pins.take)
                ∧ s.launch.hold = s.hold.sample (levelContact s.pins.hold)
                ∧ ∃ order choices, order.Perm [.cues, .lines, .watches]
                  ∧ s.launch = (runClose f order { settled.countBroken false with choices := choices } []).dwellWork))
/-- FIELD_HEAD_RETURN: FIELD HEAD f of the round launched last opens the window and empties the set of reported stations; any other
field count, or an open window, leaves everything but the assembler (R15). -/
def Obligations.FieldHeadOpensItsWindow : Prop :=
  ∀ (s : State) (f : Field) (flags : Byte), s.receiving = true →
    (s.round.phase = .awaited → f = s.round.fieldCount →
        exec (.fieldHeadReturn f flags) s
          = .next { s.listening with round := { s.round with phase := .windowOpen, reported := [] } })
      ∧ (s.round.phase ≠ .awaited ∨ f ≠ s.round.fieldCount → exec (.fieldHeadReturn f flags) s = .next s.listening)

/-- ROUND_END_RETURN: ROUND END f closes the window, ends the round, clears the broken count, samples both lines, settles every chain
(R15, R17, R18, R36, R119) and counts the dwell (R180). The works of the cue engine, the lines and the watches follow the settling
in one of the six orders (log 4). The rules give these works and not their whole order: the settling handed on chain by chain (log
11), then the broken count, and the dwell last (log 17), both lines sampled before the take of the TAKE line is handed on (log
33), and which cues the recheck leaves out (log 13) are the model's choices. Every enabled watch takes one sample, on the records
as settled (R146), the seen frames settle after it (R145), and disabled watches stay. -/
def Obligations.RoundEndClosesTheField : Prop :=
  ∀ (s : State) (f : Field) (take hold : Contact), s.inWindow = true → f = s.round.fieldCount →
    ∃ t, exec (.roundEndReturn f take hold) s = .next t
      ∧ t.round.phase = .complete ∧ t.round.placed = [] ∧ t.round.broken = 0 ∧ t.round.fieldCount = f
      ∧ t.take.last = some take ∧ t.hold.last = some hold
      ∧ t.take.accepted = (if s.take.last = some take then some take else s.take.accepted)
      ∧ t.hold.accepted = (if s.hold.last = some hold then some hold else s.hold.accepted)
      ∧ (∀ n, (t.chain n).tracked = (settleRecord (s.chain n)).record.tracked)
      ∧ t.snaps.dwellCount = (if s.snaps.settings.periodic = true ∧ s.snaps.dwellCount + 1 < s.snaps.settings.dwell then
          s.snaps.dwellCount + 1 else 0)
      ∧ (let v := (s.setContacts take hold).listening
          let settled := ((State.settleChains { v with round := { v.round with phase := .complete, placed := [] } } f).countBroken
            true)
          ∃ order choices, order.Perm [.cues, .lines, .watches]
            ∧ t = (runClose f order { settled with choices := choices } []).dwellWork)
      ∧ (∀ n, t.watches.seen[n] =
          if (t.chain n).state = .absent then none
          else if (t.chain n).missingCount = 0 then some (t.chain n).reported.frame else s.watches.seen[n])
      ∧ (∀ k : WatchNo,
          let w := s.watches.watches[k]
          let r := t.chain w.chain
          let present := r.state != .absent && r.missingCount == 0
          let sampled (level : Bool) : Watch :=
            { w with count := (modeStep w level).count, output := (modeStep w level).output, previous := some level }
          let shown : Option Bool := match w.signal with
            | .reportPresent => some present
            | .frameAdvance => some (present && (s.watches.seen[w.chain]).any (fun x => x != r.reported.frame))
            | .atSpeed => some (r.state == .atSpeed)
            | .lampUp => some (r.state != .absent && r.reported.lamp == .up)
            | .dowserOpen => some (r.state != .absent && r.reported.dowser)
            | .watch j => if j < k then some t.watches.watches[j].output else none
            | _ => none
          (w.enabled = false → t.watches.watches[k] = w)
            ∧ (w.enabled = true → t.watches.watches[k] = { w with count := 0, output := false, previous := none }
                ∨ ∃ level, t.watches.watches[k] = sampled level)
            ∧ (∀ level, w.enabled = true → w.qualifier = none → shown = some level → t.watches.watches[k] = sampled level))
      ∧ ConfigurationKept s t
/-- OWN_TELEGRAM_RETURN: a telegram that agrees in destination, kind and payload with an unmatched entry of the placed list marks the
earliest such entry matched, and ACTION UNDELIVERED is raised with the cue id and the chain or multiplexer addressed, again when it
is pending already; one that agrees with none, an ALL STOP among them, is discarded (R16, R102, R160). A FIRED cue then fails
UNDELIVERED with CUE FAILED or CHANGEOVER FAILED; any other cue, or one no longer LIVE, is left as it is (R100, R102). With a swap
pending that failure takes the swap when no other LIVE cue is WITHHELD or FIRED (R69, R70): the outgoing cues take their entry
values and the placed list is emptied; while another cue is FIRED, or WITHHELD and follows none, the swap goes on waiting. -/
def Obligations.ReturnedActionFailsItsCue : Prop :=
  ∀ (s : State) (dest : Station) (kind : Byte) (payload : List Byte),
    s.inWindow = true → kind ≠ kindFieldHead → kind ≠ kindRoundEnd →
      let agrees (p : Placed) : Prop := p.matched = false ∧ p.telegram.dest = dest ∧ p.telegram.kind = kind
        ∧ p.telegram.payload = payload
      ((∀ p ∈ s.round.placed, ¬ agrees p) → exec (.ownTelegramReturn dest kind payload) s = .next s.listening)
        ∧ (∀ front p back, s.round.placed = front ++ p :: back → agrees p → (∀ q ∈ front, ¬ agrees q) →
            let id := p.cue
            let placed := front ++ { p with matched := true } :: back
            let v : State := { s.listening with round := { s.round with placed := placed } }
            let told (u : State) (detail : Detail) : Prop :=
              (s.alarms.isPending srcActionUndelivered = false →
                  (∃ r, u.alarms.pending[srcActionUndelivered] = some r ∧ r.again = false ∧ r.detail = detail)
                    ∨ ∃ e ∈ u.alarms.inService, e.source = srcActionUndelivered ∧ e.again = false ∧ e.detail = detail)
                ∧ (s.alarms.isPending srcActionUndelivered = true →
                  (∃ r, u.alarms.pending[srcActionUndelivered] = some r ∧ r.again = true)
                    ∨ ∃ e ∈ u.alarms.inService, e.source = srcActionUndelivered ∧ e.again = true)
            ∃ raised t, exec (.ownTelegramReturn dest kind payload) s = .next t
              ∧ AlarmsOnly v raised
              ∧ (∀ n, dest = chainAddress n → told raised { chain := some n, cue := some id, field := s.round.fieldCount })
              ∧ (∀ g, dest = groupAddress g → told raised { group := some g, cue := some id, field := s.round.fieldCount })
              ∧ t = raised.carryOut [.fail id .undelivered]
              ∧ t.alarmStands srcActionUndelivered = true
              ∧ ((∀ c, s.liveCue id = some c → c.runtime.state ≠ .fired) → t = raised)
              ∧ (∀ c, s.liveCue id = some c → c.runtime.state = .fired → bankSound s.cues.live = true →
                  let failed : Prop := t.fateOf id = some (.failed, .undelivered) ∧ t.round.placed = placed
                    ∧ t.cues.swapPending = s.cues.swapPending
                  let taken : Prop := t.cues.preset = s.cues.live.map Cue.atEntry
                    ∧ t.cues.live.map Cue.fields = s.cues.preset.map Cue.fields
                    ∧ t.round.placed = [] ∧ t.cues.swapPending = false
                  let others (holds : Cue → Prop) : Prop := ∃ d ∈ s.cues.live, d.fields.id ≠ id ∧ holds d
                  CuesOnly v t
                    ∧ t.alarmStands (if c.fields.kind = .changeover then srcChangeoverFailed else srcCueFailed) = true
                    ∧ (s.cues.swapPending = false → failed)
                    ∧ (s.cues.swapPending = true → failed ∨ taken)
                    ∧ (s.cues.swapPending = true →
                      (¬ others fun d => d.runtime.state = .withheld ∨ d.runtime.state = .fired) → taken)
                    ∧ (s.cues.swapPending = true →
                      (others fun d => d.runtime.state = .fired ∨ (d.runtime.state = .withheld ∧ d.fields.follow = none)) →
                        failed)))

/-! ### Chain records -/

/-- The successor of a position is the same frame one phase on while the frame lasts, else the next frame at phase 0; the frame after
65535 is 0 (R33). -/
def Obligations.SuccessorStepsOneField : Prop :=
  ∀ (c : Cadence) (frame : Frame) (phase : BitVec 2),
    (phase.toNat + 1 < fieldsOf c frame.toNat →
        (successor c frame phase).1 = frame ∧ (successor c frame phase).2.toNat = phase.toNat + 1)
      ∧ (fieldsOf c frame.toNat ≤ phase.toNat + 1 →
        (successor c frame phase).1.toNat = (if frame.toNat = 65535 then 0 else frame.toNat + 1)
          ∧ (successor c frame phase).2 = 0)

/-- CHAIN_REPORT: the first valid report of the window from an enabled chain makes its record what R25 says, whatever follows from
it; the tracked part of every other record stays. While no swap is pending, the report judges the FIRED cues of the chain: an entry
into FAULTED fails them all (R101); else a PARK, STOP or SHUTTER is judged from its effect field on by motor, frame and dowser (R92,
R94, R98, R99), a START by the state entered (R97), and a CHANGEOVER is not judged. A malformed report (R24, R205), and any report
from the unit of a disabled chain (R22), counts for its window and changes nothing else. -/
def Obligations.ValidReportUpdatesItsRecord : Prop :=
  (∀ (s : State) (n : ChainNo) (dest : Station) (payload : List Byte) (v : Reported),
    s.inWindow = true → dest = 0 ∨ dest = 15 → s.round.reported.contains (chainAddress n) = false →
    (s.chain n).config.enabled = true → validChainReport (s.chain n).config.cadence payload = some v →
      ∃ t, exec (.chainReport (chainAddress n) dest payload) s = .next t
        ∧ (t.chain n).tracked = (arrivalRecord (s.chain n) v (s.cadenceMasked n v.frame)).tracked
        ∧ (∀ m, m ≠ n → (t.chain m).tracked = (s.chain m).tracked)
        ∧ t.cues.updateField[n] = some s.round.fieldCount
        ∧ t.alarms.isPending (srcChainSilent n) = false
        ∧ TrackingOnly (s.listening.noteReported (chainAddress n)) t
        ∧ (s.cues.swapPending = false → bankSound s.cues.live = true →
            ∀ id c, s.liveCue id = some c → c.runtime.state = .fired → c.fields.chain = n →
              let left := (s.chain n).state
              let entered := (arrivalRecord (s.chain n) v (s.cadenceMasked n v.frame)).state
              let judged := c.runtime.inEffect s.round.fieldCount
              let faults : Prop := left ≠ .faulted ∧ entered = .faulted
              let done := (t.liveCue id).map (fun d => d.runtime.state) = some .done
              let stays := (t.liveCue id).map (fun d => d.runtime.state) = some .fired
              let contradicted := t.fateOf id = some (.failed, .contradicted)
              let elsewhere : Prop := entered = .idle ∨ entered = .cued ∨ entered = .spooling ∨ entered = .runDown
              (faults → t.fateOf id = some (.failed, .chainFaulted))
                ∧ (¬ faults → ¬ judged → c.fields.kind ≠ .start → stays)
                ∧ (¬ faults → judged → c.fields.kind = .park → v.motor = .off → v.frame = c.fields.frame → done)
                ∧ (¬ faults → judged → c.fields.kind = .park → v.motor = .spooling → stays)
                ∧ (¬ faults → judged → c.fields.kind = .park →
                    (v.motor = .off ∧ v.frame ≠ c.fields.frame) ∨ v.motor = .runUp ∨ v.motor = .atSpeed
                      ∨ v.motor = .runningDown → contradicted)
                ∧ (¬ faults → judged → c.fields.kind = .stop → if v.motor = .off then done else stays)
                ∧ (¬ faults → judged → c.fields.kind = .shutter →
                    if v.dowser = true ↔ c.fields.sense ≠ some .closing then done else stays)
                ∧ (¬ faults → c.fields.kind = .start → left ≠ entered → entered = .atSpeed → done)
                ∧ (¬ faults → c.fields.kind = .start → left ≠ entered → elsewhere → judged → contradicted)
                ∧ (¬ faults → c.fields.kind = .start →
                    left = entered ∨ (entered ≠ .atSpeed ∧ ¬ (elsewhere ∧ judged)) → stays)
                ∧ (¬ faults → c.fields.kind = .changeover → stays)))
    ∧ (∀ (s : State) (n : ChainNo) (dest : Station) (payload : List Byte),
        s.inWindow = true → dest = 0 ∨ dest = 15 → s.round.reported.contains (chainAddress n) = false →
          let cadence := (s.chain n).config.cadence
          let malformed : Prop := payload.length ≠ 4 ∨ ∃ lo hi b2 b3, payload = [lo, hi, b2, b3]
            ∧ (4 < (b2.extractLsb' 2 3).toNat ∨ (b3.extractLsb' 0 2).toNat = 3
              ∨ ((b2.extractLsb' 2 3).toNat = 3 ∧ 2 ≤ (b2.extractLsb' 5 2).toNat)
              ∨ fieldsOf cadence (word lo hi).toNat ≤ (b2.extractLsb' 0 2).toNat)
          (malformed ∨ (s.chain n).config.enabled = false →
            exec (.chainReport (chainAddress n) dest payload) s
              = .next { s.listening with round := { s.round with reported := s.round.reported ++ [chainAddress n] } }))

/-- What an arrival stores (R25) and the state it derives: R29 for a FAULTED chain, the fault condition of R27 with its causes in
order (a failed lamp is a fault with the motor at speed or in run-up), else the motor (R28); at speed is taken without a check by a
chain that was not AT-SPEED, was stale or had its reference dropped (R35). -/
def Obligations.ArrivalDerivesTheState : Prop :=
  ∀ (r : ChainRecord) (v : Reported) (masked : Bool),
    let t := arrivalRecord r v masked
    let driven : Prop := v.motor = .atSpeed ∨ v.motor = .runUp
    let healthy : Prop := r.state ≠ .faulted ∧ v.brk = false ∧ v.gate = false
    t.reported = v ∧ t.heard = true ∧ t.coasted = false ∧ t.stale = false ∧ t.coastCount = 0 ∧ t.missingCount = 0
      ∧ t.config = r.config ∧ t.commanded = r.commanded
      ∧ (r.state = .faulted → t.state = .faulted ∧ t.faultCause = r.faultCause)
      ∧ (r.state ≠ .faulted → v.brk = true → t.state = .faulted ∧ t.faultCause = .brk)
      ∧ (r.state ≠ .faulted → v.brk = false → v.gate = true → t.state = .faulted ∧ t.faultCause = .gate)
      ∧ (healthy → v.lamp = .failed → driven → t.state = .faulted ∧ t.faultCause = .lamp)
      ∧ (healthy → v.motor = .off → t.state = if r.commanded.parkTarget = some v.frame then .cued else .idle)
      ∧ (healthy → v.motor = .spooling → t.state = .spooling)
      ∧ (healthy → v.motor = .runningDown → t.state = .runDown)
      ∧ (healthy → v.motor = .runUp → v.lamp ≠ .failed → t.state = .runUp)
      ∧ (healthy → v.motor = .atSpeed → v.lamp ≠ .failed →
          r.state ≠ .atSpeed ∨ r.stale = true ∨ r.referenceDropped = true →
          t.state = .atSpeed ∧ t.slipCount = 0 ∧ t.referenceDropped = false)
      ∧ (healthy → t.state ≠ .faulted → t.faultCause = r.faultCause)
/-- The cadence check of a running chain: a match clears the slip count, a first slip counts, a second faults the chain with cause
CADENCE, and a CADENCE mask makes it a resync (R34). -/
def Obligations.SecondSlipFaultsTheChain : Prop :=
  ∀ (r : ChainRecord) (v : Reported) (masked : Bool),
    r.state = .atSpeed → r.stale = false → r.referenceDropped = false →
    v.brk = false → v.gate = false → v.lamp ≠ .failed → v.motor = .atSpeed → r.slipCount ≤ 1 →
      let t := arrivalRecord r v masked
      let matched : Prop := (v.frame, v.phase) = successor r.config.cadence r.reported.frame r.reported.phase
      t.reported = v
        ∧ (matched → t.state = .atSpeed ∧ t.slipCount = 0)
        ∧ (¬ matched → masked = true → t.state = .atSpeed ∧ t.slipCount = r.slipCount)
        ∧ (¬ matched → masked = false → r.slipCount = 0 → t.state = .atSpeed ∧ t.slipCount = 1)
        ∧ (¬ matched → masked = false → r.slipCount = 1 → t.state = .faulted ∧ t.faultCause = .cadence)
/-- CHAIN_STALE and CHAIN_ABSENT: the third missing field makes a chain stale, keeps its state and raises CHAIN n SILENT; the
twenty-fifth makes it ABSENT with no fault cause and fails its FIRED cues CHAIN LOST while no swap is pending (R38, R39, R101).
The settling of a record by the rows of Table 2-4: not examined, heard, coasted to its successor, position held, become stale,
become ABSENT (R36, R37, R38, R39); a chain that coasts and becomes stale at once, as after CLEAR FAULT of a silent chain, has its
flags and position of both and no update notice (R37, R40). The settling of a field close settles every record first and then
hands on what it brought, the update of a coast step with its field, the alarm, the air fault, the loss, chain by chain and the
FIRED cues of a lost chain before its state-change notice, which is the model's choice (R36 to R41; logs 11, 40). -/
def Obligations.SilentChainGoesStaleThenAbsent : Prop :=
  (∀ (s : State) (n : ChainNo),
    (s.chain n).config.enabled = true → (s.chain n).state ≠ .absent → (s.chain n).heard = false →
      ((s.chain n).stale = false → (s.chain n).missingCount = 2 →
          ∃ t, exec (.chainStale n) s = .next t
            ∧ (t.chain n).stale = true ∧ (t.chain n).missingCount = 3 ∧ (t.chain n).state = (s.chain n).state
            ∧ t.alarmStands (srcChainSilent n) = true ∧ (∀ m, m ≠ n → t.chain m = s.chain m) ∧ t.cues = s.cues
            ∧ TrackingOnly s t)
        ∧ ((s.chain n).missingCount = 24 →
          ∃ t, exec (.chainAbsent n) s = .next t
            ∧ (t.chain n).state = .absent ∧ (t.chain n).faultCause = .none ∧ (t.chain n).missingCount = 25
            ∧ (t.chain n).slipCount = 0 ∧ (t.chain n).coastCount = 0 ∧ (t.chain n).stale = (s.chain n).stale
            ∧ (∀ m, m ≠ n → (t.chain m).tracked = (s.chain m).tracked) ∧ TrackingOnly s t
            ∧ (s.cues.swapPending = false → bankSound s.cues.live = true →
                ∀ id c, s.liveCue id = some c → c.runtime.state = .fired → c.fields.chain = n →
                  t.fateOf id = some (.failed, .chainLost))))
    ∧ (∀ r : ChainRecord,
        let examined : Prop := r.config.enabled = true ∧ r.state ≠ .absent
        let missing : Prop := examined ∧ r.heard = false
        let coasts : Prop := r.state = .atSpeed ∧ r.stale = false ∧ r.coastCount < 2
        let next := successor r.config.cadence r.reported.frame r.reported.phase
        let held : ChainRecord := { r with missingCount := min 25 (r.missingCount + 1) }
        let moved : ChainRecord := { held with
          reported := { r.reported with frame := next.1, phase := next.2 }, coasted := true, coastCount := r.coastCount + 1 }
        let lost (x : ChainRecord) : ChainRecord :=
          { x with state := .absent, faultCause := .none, slipCount := 0, coastCount := 0 }
        let gives (x : Settled) : Prop := settleRecord r = x
        (¬ examined → gives { record := r })
          ∧ (examined → r.heard = true → gives { record := { r with heard := false } })
          ∧ (missing → r.missingCount < 24 → r.missingCount ≠ 2 ∨ r.stale = true →
              (coasts → gives { record := moved, coasted := true }) ∧ (¬ coasts → gives { record := held }))
          ∧ (missing → r.missingCount = 2 → r.stale = false →
              (coasts → gives { record := { moved with stale := true }, stale := true })
                ∧ (¬ coasts → gives { record := { held with stale := true }, stale := true }))
          ∧ (missing → 24 ≤ r.missingCount →
              (coasts → gives { record := lost moved, absent := true })
                ∧ (¬ coasts → gives { record := lost held, absent := true })))
    ∧ (∀ (s : State) (f : Field), ∃ v : State,
        (∀ n, v.chain n = (settleRecord (s.chain n)).record)
          ∧ (∀ n, v.cues.updateField[n] = if (settleRecord (s.chain n)).coasted then some f else s.cues.updateField[n])
          ∧ v = { s with chains := v.chains, cues := { s.cues with updateField := v.cues.updateField } }
          ∧ s.settleChains f = allChains.foldl (fun t n =>
              let x := settleRecord (s.chain n)
              let t1 := if x.coasted then (t.updateNotice n f false).groupUpdate n else t
              let t2 := if x.stale then
                  (t1.raise (srcChainSilent n) { chain := some n, field := t1.round.fieldCount }).groupTrouble n .silent
                else t1
              if x.absent then (t2.failFired n .chainLost).stateChange n (s.chain n).state .absent none else t2) v)

/-! ### Field arithmetic -/

/-- Fields-to-frame moves by one from each field to the next, before and after the cue frame, under either cadence, and has the values
of R46 and R47 (R33, R45). An update notice evaluates the ARMED frame-timed cues of its reference in list order, and one of a
report then judges the arrival for the FIRED cues of the chain (R40, R50, R92; judged after, log 41, and in list order, log 52:
the model's choices). A CHAIN REPORT hands its update on so, after an entry into FAULTED and before the state-change notice (R25,
R30, R41; log 10); an evaluation on a chain at speed and not stale finds the cue due at u + D and brings it to its decision, makes
it MISSED beyond the late limit, or sends the lamp-up of a START on its own, and else does nothing (R48 to R54, R95). What arming
and take hand a cue to, with the due field of a PARK and a TAKE cue (R50, R55). D is compared exactly, not modulo 65536 (log 7),
and a lamp-up due together with its START is left to the START's set (log 32): the model's choices. -/
def Obligations.FieldsToFrameFallsByOne : Prop :=
  (∀ (cad : Cadence) (frame : Frame) (phase : BitVec 2) (t : Nat),
    frame.toNat < 65535 → phase.toNat < fieldsOf cad frame.toNat →
      let next := successor cad frame phase
      fieldsToFrame cad next.1.toNat next.2.toNat t = fieldsToFrame cad frame.toNat phase.toNat t - 1)
    ∧ (∀ (cad : Cadence) (c p t : Nat),
        (c < t → cad = .twoTwo → fieldsToFrame cad c p t = 2 * ((t - c : Nat) : Int) - p)
          ∧ (c < t → cad = .twoThree → (t - c) % 2 = 0 → fieldsToFrame cad c p t = 5 * (((t - c) / 2 : Nat) : Int) - p)
          ∧ (c < t → cad = .twoThree → (t - c) % 2 = 1 →
              fieldsToFrame cad c p t = 5 * (((t - c) / 2 : Nat) : Int) + (if c % 2 = 0 then 2 else 3) - p)
          ∧ (t ≤ c → fieldsToFrame cad c p t = -(fieldsToFrame cad t 0 c + p)))
    ∧ (∀ (s : State) (n : ChainNo) (u : Field),
        let v : State := { s with cues := { s.cues with updateField := s.cues.updateField.set n (some u) } }
        let evaluated := v.carryOut ((s.cues.live.filter (fun c => c.runtime.state == .armed
            && (c.fields.release == .auto || c.fields.release == .gated) && c.fields.kind != .park
            && c.fields.reference.getD c.fields.chain == n)).map (fun c => .evaluate c.fields.id))
        let fired := evaluated.cues.live.filter (fun c => c.runtime.state == .fired && c.fields.chain == n)
        s.updateNotice n u false = evaluated
          ∧ s.updateNotice n u true = evaluated.carryOut (fired.map (fun c => .judgeArrival c.fields.id u)))
    ∧ (∀ (s : State) (n : ChainNo) (dest : Station) (payload : List Byte) (v : Reported),
        s.inWindow = true → dest = 0 ∨ dest = 15 → s.round.reported.contains (chainAddress n) = false →
        (s.chain n).config.enabled = true → validChainReport (s.chain n).config.cadence payload = some v →
          let f := s.round.fieldCount
          let left := (s.chain n).state
          let record := arrivalRecord (s.chain n) v (s.cadenceMasked n v.frame)
          let stored := ((s.listening.noteReported (chainAddress n)).setChain n record).withdraw (srcChainSilent n)
          let judged := if left ≠ .faulted ∧ record.state = .faulted then stored.enterFaulted n else stored
          let updated := (judged.updateNotice n f true).groupUpdate n
          let fired := updated.cues.live.filter (fun c => c.runtime.state == .fired && c.fields.chain == n)
          let noticed := updated.carryOut (fired.map (fun c => .judgeEntry c.fields.id record.state (some f)))
          exec (.chainReport (chainAddress n) dest payload) s
            = .next (if left = record.state then updated else noticed.groupEntry n left record.state))
    ∧ (∀ (s : State) (c : Cue), s.liveCue c.fields.id = some c → c.runtime.state = .armed →
        let f := c.fields
        let ref := s.chain (f.reference.getD f.chain)
        let config := (s.chain f.chain).config
        let qualifies : Prop := ref.state = .atSpeed ∧ ref.stale = false
        let lead : Int := match f.kind with
          | .start => 2 + config.runUp
          | .mark => 0
          | .park | .changeover | .stop | .shutter => 2
        let distance : Int := fieldsToFrame ref.config.cadence ref.reported.frame.toNat ref.reported.phase.toNat f.frame.toNat
          + f.offset - lead
        (¬ qualifies → s.evaluateCue c = s.quiet)
          ∧ (s.cues.updateField[f.reference.getD f.chain] = none → s.evaluateCue c = s.quiet)
          ∧ (∀ u, qualifies → s.cues.updateField[f.reference.getD f.chain] = some u →
              let since := fieldDiff s.fieldCount u
              let found := { c.runtime with dueField := some (u + BitVec.ofInt 16 distance) }
              let lampUp : Prop := f.kind = .start ∧ 0 < config.lampLead ∧ c.runtime.lampSent = false ∧ s.cues.rehearse = false
                ∧ distance - config.lampLead ≤ since
              (distance ≤ since → since - distance ≤ s.cues.limit →
                  s.evaluateCue c = (s.setRuntime f.id found).decideCue { c with runtime := found })
                ∧ (distance ≤ since → s.cues.limit < since - distance →
                  let t := (s.evaluateCue c).state
                  t.liveCue f.id = some { c with runtime := { found with
                      state := .failed, cause := .missed, effectField := none, expected := none } }
                    ∧ t.alarmStands (if f.kind = .changeover then srcChangeoverFailed else srcCueFailed) = true
                    ∧ AlarmsOnly { s with
                        cues := { s.cues with live := t.cues.live }
                        round := { s.round with sets := s.round.sets.filter (fun a => a.cue != f.id) } } t)
                ∧ (since < distance → lampUp →
                  s.evaluateCue c = State.quiet { s with
                    cues := { s.cues with live := putRuntime s.cues.live f.id { c.runtime with lampSent := true } }
                    round := { s.round with
                      sets := s.round.sets ++ [{ cue := f.id, telegrams := [cueAction f.chain kindLampUp f.id] }] }
                    chains := s.chains.set f.chain { s.chain f.chain with
                      commanded := { (s.chain f.chain).commanded with lamp := .up } } })
                ∧ (since < distance → ¬ lampUp → s.evaluateCue c = s.quiet)))
    ∧ (∀ (s : State) (c : Cue),
        let f := c.fields
        let found := { c.runtime with dueField := some s.fieldCount }
        let dueNow := (s.setRuntime f.id found).decideCue { c with runtime := found }
        ((f.release = .auto ∨ f.release = .gated) → f.kind ≠ .park → s.afterArming c = s.evaluateCue c)
          ∧ (f.release = .auto → f.kind = .park → s.afterArming c = dueNow)
          ∧ (f.release = .gated → f.kind = .park → s.afterArming c = s.quiet)
          ∧ (f.release = .take ∨ f.release = .follow → s.afterArming c = s.quiet)
          ∧ (c.runtime.state = .armed → f.release = .take ∨ f.kind = .park → s.actOnTake c = dueNow)
          ∧ (c.runtime.state = .armed → f.release = .gated → f.kind ≠ .park → s.actOnTake c = s.evaluateCue c)
          ∧ (c.runtime.state = .withheld → s.actOnTake c = s.decideCue c))

/-! ### Editing, swapping and running the cue list -/

/-- The gate of every edit: a bank that is none is BAD FIELD, a pending swap BUSY, the LIVE bank LIVE; a refused edit changes
nothing but class 5 (R62). -/
def Obligations.EditsPassTheGateInOrder : Prop :=
  ∀ (s : State) (bank a b : Byte) (reason : Reason), s.deskReady = true →
    (¬ (bank = 1 ∨ bank = 2) ∧ reason = .badField)
      ∨ ((bank = 1 ∨ bank = 2) ∧ s.cues.swapPending = true ∧ reason = .busy)
      ∨ (bank = 1 ∧ s.cues.swapPending = false ∧ reason = .live) →
      exec (.deleteCue [bank, a, b]) s = .next (s.listening.answered 0x02 (some (word a b)) (some reason) [])
        ∧ exec (.clearBank [bank]) s = .next (s.listening.answered 0x03 none (some reason) [])
        ∧ ∀ rest : List Byte, rest.length = 15 →
            exec (.loadCue (bank :: a :: b :: rest)) s
              = .next (s.listening.answered 0x01 (some (word a b)) (some reason) [])

/-- LOAD CUE past the gate: a field outside its values is BAD FIELD; the stored fields are clamped, and what its kind or release has
no use for is dropped (R60, R63). A new id joins the tail or stands before the cue named; an id already there is replaced in place,
DUPLICATE when the before id asks for another place; a before id not there is NOT FOUND, a 65th cue FULL (R64). A FOLLOW cue must
stand after the cue it follows, else BAD REFERENCE (R65). -/
def Obligations.LoadCueAppendsToPreset : Prop :=
  ∀ (s : State) (i0 i1 chain kind ref f0 f1 o0 o1 rel w0 w1 permit snap sense b0 b1 : Byte),
    s.deskReady = true → s.cues.swapPending = false →
      let id := word i0 i1
      let before := word b0 b1
      let bank := s.cues.preset
      let command : Instr :=
        .loadCue [2, i0, i1, chain, kind, ref, f0, f1, o0, o1, rel, w0, w1, permit, snap, sense, b0, b1]
      let u := s.listening
      let refused (r : Reason) := exec command s = .next (u.answered 0x01 (some id) (some r) [])
      let numbered (b : Byte) : Prop := 1 ≤ b.toNat ∧ b.toNat ≤ 8
      let bad : Prop := ¬ (1 ≤ id.toNat ∧ id.toNat ≤ 999) ∨ ¬ numbered chain ∨ ¬ (1 ≤ kind.toNat ∧ kind.toNat ≤ 6)
        ∨ ¬ (1 ≤ rel.toNat ∧ rel.toNat ≤ 4) ∨ 2 ≤ snap.toNat ∨ (kind ≠ 1 ∧ ref ≠ 0xFF ∧ ¬ numbered ref)
        ∨ (permit ≠ 0xFF ∧ ¬ numbered permit) ∨ (kind = 5 ∧ sense ≠ 1 ∧ sense ≠ 2)
      (bad → refused .badField)
        ∧ (¬ bad → ∃ f : CueFields,
          (f.id = id ∧ indexOf 8 chain = some f.chain ∧ kindOf kind = some f.kind ∧ releaseOf rel = some f.release
            ∧ f.frame = word f0 f1 ∧ f.snapshot = (snap == 1) ∧ f.permit = indexOf 8 permit
            ∧ f.reference = (if f.kind = .park then none else indexOf 8 ref)
            ∧ f.sense = (if f.kind = .shutter then senseOf sense else none)
            ∧ f.follow = (if f.release = .follow ∧ word w0 w1 ≠ 0 then some (word w0 w1) else none)
            ∧ f.offset = (if f.release = .follow then max 0 (min 250 (word o0 o1).toInt)
                else max (-99) (min 99 (word o0 o1).toInt)))
          ∧ (let new : Cue := { fields := f }
              let here (i : CueId) : Prop := ∃ c ∈ bank, c.fields.id = i
              let followed (l : List Cue) : Prop := ∃ front x back, l = front ++ x :: back ∧ f.follow = some x.fields.id
                ∧ (∀ y ∈ front ++ [x], y.fields.id ≠ id) ∧ ∃ y ∈ back, y.fields.id = id
              let stored (l : List Cue) : Prop :=
                (f.release ≠ .follow ∨ followed l →
                    exec command s = .next ((u.setPreset l).answered 0x01 (some id) none []))
                  ∧ (f.release = .follow → ¬ followed l → refused .badReference)
              (¬ here id → before = 0 → 64 ≤ bank.length → refused .full)
                ∧ (¬ here id → before = 0 → bank.length < 64 → stored (bank ++ [new]))
                ∧ (¬ here id → before ≠ 0 → ¬ here before → refused .notFound)
                ∧ (¬ here id → before ≠ 0 → here before → 64 ≤ bank.length → refused .full)
                ∧ (¬ here id → before ≠ 0 → bank.length < 64 →
                    ∀ front x back, bank = front ++ x :: back → x.fields.id = before →
                      (∀ y ∈ front, y.fields.id ≠ before) → stored (front ++ new :: x :: back))
                ∧ (here id → before = 0 → stored (bank.map (fun c => if c.fields.id = id then new else c)))
                ∧ (here id → before ≠ 0 → ¬ here before → refused .notFound)
                ∧ (here id → before ≠ 0 → here before →
                    (∃ front x y back, bank = front ++ x :: y :: back ∧ x.fields.id = id ∧ y.fields.id = before) →
                      stored (bank.map (fun c => if c.fields.id = id then new else c)))
                ∧ (here id → before ≠ 0 → here before →
                    (¬ ∃ front x y back, bank = front ++ x :: y :: back ∧ x.fields.id = id ∧ y.fields.id = before) →
                      refused .duplicate)))
/-- DELETE CUE and CLEAR BANK past the gate: an unknown id is NOT FOUND, a followed one BAD REFERENCE, any other is removed and the
cues behind it close up; CLEAR BANK empties the PRESET bank (R66, R67). -/
def Obligations.DeleteAndClearEditPreset : Prop :=
  ∀ (s : State) (i0 i1 : Byte), s.deskReady = true → s.cues.swapPending = false →
    let id := word i0 i1
    let u := s.listening
    let followed := s.cues.preset.any (fun c => c.fields.follow == some id && c.fields.id != id)
    (goodId id = false → exec (.deleteCue [2, i0, i1]) s = .next (u.answered 0x02 (some id) (some .badField) []))
      ∧ (goodId id = true → findCue s.cues.preset id = none →
          exec (.deleteCue [2, i0, i1]) s = .next (u.answered 0x02 (some id) (some .notFound) []))
      ∧ (goodId id = true → (findCue s.cues.preset id).isSome = true → followed = true →
          exec (.deleteCue [2, i0, i1]) s = .next (u.answered 0x02 (some id) (some .badReference) []))
      ∧ (goodId id = true → (findCue s.cues.preset id).isSome = true → followed = false →
          exec (.deleteCue [2, i0, i1]) s
            = .next ((u.setPreset (s.cues.preset.filter (fun c => c.fields.id != id))).answered 0x02 (some id) none []))
      ∧ exec (.clearBank [2]) s = .next ((u.setPreset []).answered 0x03 none none [])

/-- SWAP: BUSY while one is pending; taken at once when no LIVE cue is WITHHELD or FIRED; else set pending; the flag is clear after
full reset (R68). -/
def Obligations.SwapIsTakenOrSetPending : Prop :=
  ∀ s : State, s.deskReady = true →
    let u := s.listening
    (s.cues.swapPending = true → exec (.swap []) s = .next (u.answered 0x04 none (some .busy) []))
      ∧ (s.cues.swapPending = false → (∃ c ∈ s.cues.live, c.runtime.state = .withheld ∨ c.runtime.state = .fired) →
          exec (.swap []) s
            = .next (({ u with cues := { s.cues with swapPending := true } } : State).answered 0x04 none none []))
      ∧ (s.cues.swapPending = false → (∀ c ∈ s.cues.live, c.runtime.state ≠ .withheld ∧ c.runtime.state ≠ .fired) →
          exec (.swap []) s = .next ((u.takeSwap.carryOut u.takeSwap.eligibleAll).repliedAt s 0x04 none []))
      ∧ s.fullReset.cues.swapPending = false

/-- SWAP_TAKEN: the waiting class 3 sets of the cues of the outgoing bank are withdrawn, the placed list is emptied, the roles
exchange, the new PRESET bank has its entry values, the new LIVE bank keeps its list, and the flag is cleared; nothing else
changes until the eligibility of the new LIVE bank is computed, of every chain in the list order of their heads (R69, R73). An
empty new LIVE bank brings nothing more. -/
def Obligations.TakenSwapExchangesTheBanks : Prop :=
  ∀ s : State, s.swapReady = true →
    let exchanged : State := { s with
      round := { s.round with
        sets := s.round.sets.filter (fun a => !s.cues.live.any (fun c => c.fields.id == a.cue))
        placed := [] }
      cues := { s.cues with
        live := s.cues.preset
        preset := s.cues.live.map (fun c => { c with runtime := {} })
        swapPending := false } }
    ∃ t, exec .swapTaken s = .next t
      ∧ t = exchanged.carryOut exchanged.eligibleAll
      ∧ (s.cues.preset = [] → t = exchanged)
      ∧ t.cues.preset = s.cues.live.map Cue.atEntry
      ∧ t.cues.live.map Cue.fields = s.cues.preset.map Cue.fields
      ∧ t.cues.swapPending = false ∧ t.round.placed = [] ∧ CuesOnly s t

/-- CANCEL SWAP clears the flag and is accepted, with no swap pending too; CLEAR and full reset also clear it (R71). -/
def Obligations.CancelSwapClearsTheFlag : Prop :=
  ∀ s : State,
    (s.deskReady = true →
        exec (.cancelSwap []) s
          = .next (({ s.listening with cues := { s.cues with swapPending := false } } : State).answered 0x05 none none []))
      ∧ (s.deskReady = true → ∃ t, exec (.clear []) s = .next t ∧ t.cues.swapPending = false)
      ∧ s.fullReset.cues.swapPending = false

/-- ABANDON makes an unfinished or FIRED LIVE cue ABANDONED while no swap is pending, leaves a finished one as it is, and refuses an
id that is not there; its FOLLOW cues that were WAITING, ARMED or WITHHELD are ABANDONED with it, and its chain's head is no
longer WAITING (R106, R77, R80). Eligibility: a WAITING head becomes ARMED and is handed on as its release says, any other head is
left as it is (R72; a FIRED cue is finished, log 5); after a swap and CLEAR every chain that has a head is computed, once, the
heads in LIVE list order (R73). What follows every change of state (R77): a cue that is DONE, FAILED or ABANDONED has its waiting
set withdrawn; a pending swap is taken when the cue leaves WITHHELD or FIRED and no LIVE cue is left so, and drops what comes
after (R70); else the followers of a FAILED or ABANDONED cue are abandoned in list order, and the eligibility of its chain is
computed. Followers of a FIRED cue that fails are abandoned too, which a worked variant does not show (R80; log 48). -/
def Obligations.AbandonEndsALiveCue : Prop :=
  (∀ (s : State) (i0 i1 : Byte), s.deskReady = true →
    let id := word i0 i1
    let u := s.listening
    (goodId id = false → exec (.abandon [i0, i1]) s = .next (u.answered 0x06 (some id) (some .badField) []))
      ∧ (goodId id = true → s.liveCue id = none →
          exec (.abandon [i0, i1]) s = .next (u.answered 0x06 (some id) (some .notFound) []))
      ∧ (∀ c, goodId id = true → s.liveCue id = some c →
          c.runtime.state = .done ∨ c.runtime.state = .failed ∨ c.runtime.state = .abandoned →
          exec (.abandon [i0, i1]) s = .next (u.answered 0x06 (some id) none []))
      ∧ (∀ c, goodId id = true → s.liveCue id = some c → s.cues.swapPending = false →
          c.runtime.state = .waiting ∨ c.runtime.state = .armed ∨ c.runtime.state = .withheld ∨ c.runtime.state = .fired →
          bankSound s.cues.live = true →
          ∃ t, exec (.abandon [i0, i1]) s = .next t
            ∧ (t.liveCue id).map (fun c => c.runtime.state) = some .abandoned
            ∧ (∀ d ∈ s.cues.live, d.fields.follow = some id → d.fields.release = .follow → d.unfinished →
                (t.liveCue d.fields.id).map (fun d => d.runtime.state) = some .abandoned)
            ∧ (∀ d, isHead t.cues.live c.fields.chain d → d.runtime.state ≠ .waiting)
            ∧ CuesOnly (u.answered 0x06 (some id) none []) t))
    ∧ (∀ (s : State) (n : ChainNo),
        ((¬ ∃ c, isHead s.cues.live n c) → s.runTask (.eligible n) = s.quiet)
          ∧ (∀ c, isHead s.cues.live n c → c.runtime.state ≠ .waiting → s.runTask (.eligible n) = s.quiet)
          ∧ (∀ c, isHead s.cues.live n c → c.runtime.state = .waiting →
              let armed := { c.runtime with state := .armed }
              s.runTask (.eligible n) = (s.setRuntime c.fields.id armed).afterArming { c with runtime := armed }))
    ∧ (∀ s : State, ∃ heads : List Cue, heads.Sublist s.cues.live ∧ (heads.map (fun c => c.fields.chain)).Nodup
        ∧ (∀ c, c ∈ heads ↔ isHead s.cues.live c.fields.chain c)
        ∧ s.eligibleAll = heads.map (fun c => .eligible c.fields.chain))
    ∧ (∀ (s : State) (id : CueId),
        ((∀ d, s.liveCue id = some d → ¬ d.unfinished) → s.runTask (.abandonFollower id) = s.quiet)
          ∧ (∀ d, s.liveCue id = some d → d.unfinished →
              let r := { d.runtime with state := .abandoned, effectField := none, expected := none }
              s.runTask (.abandonFollower id) = (s.setRuntime id r).settleChange d r))
    ∧ (∀ (s : State) (c : Cue) (r : CueRuntime),
        let ended : Bool := r.state == .done || r.state == .failed || r.state == .abandoned
        let u : State := if ended then
            { s with round := { s.round with sets := s.round.sets.filter (fun a => a.cue != c.fields.id) } }
          else s
        let swaps : Prop := (c.runtime.state = .withheld ∨ c.runtime.state = .fired) ∧ s.cues.swapPending = true
          ∧ ∀ d ∈ s.cues.live, d.runtime.state ≠ .withheld ∧ d.runtime.state ≠ .fired
        let followers := (s.cues.live.filter (fun d => d.fields.follow == some c.fields.id)).map
          (fun d => Task.abandonFollower d.fields.id)
        let brings (tasks : List Task) : Prop := s.settleChange c r = { state := u, tasks := tasks, swapped := false }
        (swaps → s.settleChange c r = { state := u.takeSwap, tasks := u.takeSwap.eligibleAll, swapped := true })
          ∧ (¬ swaps → r.state = .failed ∨ r.state = .abandoned → brings (followers ++ [.eligible c.fields.chain]))
          ∧ (¬ swaps → r.state ≠ .failed → r.state ≠ .abandoned → brings [.eligible c.fields.chain]))

/-- TAKE: given to the earliest LIVE cue that is ARMED or WITHHELD, of release TAKE or GATED and without one, and its flag is set
while no swap is pending; with none it is discarded (R81). A decision that passes fires the cue: it records fired and effect field,
shortfall and late flag, queues the set of its kind, a START's RUN joining its waiting lamp-up, writes the commanded part, sets a
changeover in flight, and takes the snapshot it asks for (R57, R88, R89, R93, R96, R98, R99, R130). R57 writes the expected field
with the commanded motion; that a START keeps it with its cue record too is the model's choice (log 15). A MARK, and any cue under
rehearse, is DONE at once, with no set queued and no commanded part written (R99, R103). -/
def Obligations.TakeGoesToEarliestCandidate : Prop :=
  (∀ s : State, s.deskReady = true →
    (s.cues.live.find? Cue.wantsTake = none →
        exec (.take []) s = .next (s.listening.answered 0x07 none none []))
      ∧ (∀ c, s.cues.live.find? Cue.wantsTake = some c → s.cues.swapPending = false → bankSound s.cues.live = true →
          ∃ t, exec (.take []) s = .next t
            ∧ (t.liveCue c.fields.id).map (fun d => d.runtime.takeGiven) = some true
            ∧ CuesOnly (s.listening.answered 0x07 (some c.fields.id) none []) t))
    ∧ (∀ (s : State) (c : Cue), s.liveCue c.fields.id = some c → c.fields.kind ≠ .mark →
        let t := (s.fireCue c).state
        let g := s.fieldCount
        let n := c.fields.chain
        let id := c.fields.id
        let before := (s.chain n).commanded
        let lamp : Bool := decide (0 < (s.chain n).config.lampLead) && !c.runtime.lampSent
        let short := match c.runtime.dueField with
          | none => 0
          | some d => min 255 (fieldDiff g d).toNat
        let queued (l : List Telegram) : Prop := t.round.sets = s.round.sets ++ [{ cue := id, telegrams := l }]
        let wrote (x : Commanded) : Prop := t.chains = s.chains.set n { s.chain n with commanded := x }
        let expected := g + 2 + BitVec.ofNat 16 (s.chain n).config.runUp
        let start := (if lamp then [cueAction n kindLampUp id] else []) ++ [cueAction n kindRun id]
        (s.verdict c = .passes → s.cues.rehearse = false → s.decideCue c = s.fireCue c)
          ∧ (∃ d, t.liveCue id = some d ∧ d.fields = c.fields ∧ d.runtime.state = .fired ∧ d.runtime.firedField = some g
              ∧ d.runtime.effectField = some (g + 2) ∧ d.runtime.confirmCount = 0 ∧ d.runtime.shortfall = short
              ∧ d.runtime.late = decide (0 < short) ∧ d.runtime.dueField = c.runtime.dueField
              ∧ d.runtime.takeGiven = c.runtime.takeGiven
              ∧ (c.fields.kind = .start → d.runtime.expected = some expected ∧ d.runtime.lampSent = (c.runtime.lampSent || lamp)))
          ∧ (0 < short → s.lateMasked n = false → t.alarmStands srcCueLate = true)
          ∧ (c.fields.kind = .park → queued [spoolToTelegram n c.fields.frame]
              ∧ wrote { before with motion := .spoolTo c.fields.frame, parkTarget := some c.fields.frame })
          ∧ (c.fields.kind = .stop →
              queued [cueAction n kindStop id, cueAction n kindShutterClose id, cueAction n kindLampStandby id]
                ∧ wrote { before with motion := .stop, shutter := .closed, lamp := .standby })
          ∧ (c.fields.kind = .shutter → c.fields.sense ≠ some .closing →
              queued [cueAction n kindShutterOpen id] ∧ wrote { before with shutter := .opened })
          ∧ (c.fields.kind = .shutter → c.fields.sense = some .closing →
              queued [cueAction n kindShutterClose id] ∧ wrote { before with shutter := .closed })
          ∧ (c.fields.kind = .start →
              wrote { before with motion := .run expected, lamp := if lamp then .up else before.lamp }
                ∧ ((∀ a ∈ s.round.sets, a.cue ≠ id) → queued start)
                ∧ ((∃ a ∈ s.round.sets, a.cue = id) → t.round.sets = s.round.sets.map (fun a =>
                    if a.cue = id then { a with telegrams := a.telegrams ++ start } else a)))
          ∧ (∀ g' i, c.fields.kind = .changeover → s.groupOf n = some (g', i) →
              let out := (s.group g').holder
              queued ([selectTelegram g' i, cueAction n kindShutterOpen id]
                  ++ (out.map (fun o => cueAction o kindShutterClose id)).toList)
                ∧ (t.group g').inFlight = some { cue := id, incoming := n, input := i, outgoing := out }
                ∧ (out ≠ some n → (t.chain n).commanded = { before with shutter := .opened })
                ∧ (∀ o, out = some o → o ≠ n → (t.chain o).commanded = { (s.chain o).commanded with shutter := .closed })
                ∧ (∀ m, (t.chain m).tracked = (s.chain m).tracked)
                ∧ (∀ m, m ≠ n → out ≠ some m → t.chain m = s.chain m))
          ∧ (c.fields.snapshot = true → s.snaps.settings.cue = true → short = 0 → s.snapshotFits = true →
              s.snaps.store ++ [s.newSnapshot .cue (some id)] <+: t.snaps.store)
          ∧ (c.fields.snapshot = false ∨ s.snaps.settings.cue = false → short = 0 → t.snaps = s.snaps))
    ∧ (∀ (s : State) (c : Cue), s.liveCue c.fields.id = some c → s.cues.swapPending = false → s.verdict c = .passes →
        c.fields.kind = .mark ∨ s.cues.rehearse = true →
          let t := (s.decideCue c).state
          (∃ d, t.liveCue c.fields.id = some d ∧ d.fields = c.fields ∧ d.runtime.state = .done
              ∧ d.runtime.firedField = some s.fieldCount ∧ d.runtime.dueField = c.runtime.dueField
              ∧ d.runtime.rehearsed = (c.runtime.rehearsed || s.cues.rehearse))
            ∧ t.chains = s.chains ∧ t.groupA = s.groupA ∧ t.groupB = s.groupB
            ∧ t.round.sets = s.round.sets.filter (fun a => a.cue != c.fields.id))
/-- ALL STOP: the broadcast waits in class 2, every cue that was ARMED, WITHHELD or FIRED is ABANDONED while no swap is pending, and
a chain with no LIVE cue of its own is left commanded to stop, its lamp and park target kept (R105). -/
def Obligations.AllStopAbandonsAndStops : Prop :=
  ∀ s : State, s.deskReady = true → s.cues.swapPending = false → bankSound s.cues.live = true →
    ∃ t, exec (.allStop []) s = .next t
      ∧ CuesOnly (({ s.listening with round := { s.round with allStop := true } } : State).answered 0x08 none none []) t
      ∧ (∀ id c, s.liveCue id = some c →
          c.runtime.state = .armed ∨ c.runtime.state = .withheld ∨ c.runtime.state = .fired →
          (t.liveCue id).map (fun d => d.runtime.state) = some .abandoned)
      ∧ (∀ n, (∀ c ∈ s.cues.live, c.fields.chain ≠ n) →
          (t.chain n).commanded.motion = .stop ∧ (t.chain n).commanded.lamp = (s.chain n).commanded.lamp
            ∧ (t.chain n).commanded.parkTarget = (s.chain n).commanded.parkTarget)

/-- The checks of a firing decision in their order: take, built-in condition, HOLD, permit; the built-in condition may complete the
cue before HOLD and the permit are read (R83). What the built-in condition of each kind is, and when it completes the cue without
action (R84, with INCOMING READY of R58). Under rehearse the built-in condition is not read (R103). A decision that fails makes the
cue WITHHELD with its reason, and from ARMED with count 0 and the alarm of its kind, else with no alarm (R86). Completion without
action makes it DONE with fired field, shortfall and late flag, CUE LATE and snapshot as at a firing, with nothing queued and no
commanded part written (R85, R77). -/
def Obligations.FiringDecisionChecksInOrder : Prop :=
  ∀ (s : State) (c : Cue),
    let noTake := c.fields.release = .gated ∧ c.runtime.takeGiven = false
    let f := c.fields
    let r := s.chain f.chain
    (s.cues.rehearse = false →
      (noTake → s.verdict c = .withheld .noTake)
        ∧ (¬ noTake → s.alreadyDone c.fields = true → s.verdict c = .completes)
        ∧ (¬ noTake → s.alreadyDone c.fields = false → s.builtIn c.fields = false → s.verdict c = .withheld .condition)
        ∧ (¬ noTake → s.alreadyDone c.fields = false → s.builtIn c.fields = true → s.hold.accepted = some .closed →
            s.verdict c = .withheld .hold)
        ∧ (¬ noTake → s.alreadyDone c.fields = false → s.builtIn c.fields = true → s.hold.accepted ≠ some .closed →
            s.verdict c = if s.permitted c then .passes else .withheld .permit))
      ∧ (s.cues.rehearse = true →
        (noTake → s.verdict c = .withheld .noTake)
          ∧ (¬ noTake → s.hold.accepted = some .closed → s.verdict c = .withheld .hold)
          ∧ (¬ noTake → s.hold.accepted ≠ some .closed →
              s.verdict c = if s.permitted c then .passes else .withheld .permit))
      ∧ (s.alreadyDone f = true ↔
          (f.kind = .start ∧ (r.state = .runUp ∨ r.state = .atSpeed)) ∨ (f.kind = .stop ∧ r.stopped)
            ∨ (f.kind = .changeover ∧ ∃ g i, s.groupOf f.chain = some (g, i) ∧ (s.group g).holder = some f.chain))
      ∧ (s.builtIn f = true ↔
          ((f.kind = .park ∨ f.kind = .start) ∧ r.stopped) ∨ (f.kind = .stop ∧ ¬ r.stopped)
            ∨ (f.kind = .shutter ∧ r.state ≠ .absent) ∨ f.kind = .mark
            ∨ (f.kind = .changeover ∧ s.readyFor f.chain ∧ r.state ≠ .faulted
              ∧ ∃ g i, s.groupOf f.chain = some (g, i) ∧ (s.group g).inFlight = none))
      ∧ (∀ reason, s.verdict c = .withheld reason → s.liveCue f.id = some c →
          let t := (s.decideCue c).state
          (c.runtime.state = .armed →
              t.liveCue f.id
                  = some { c with runtime := { c.runtime with state := .withheld, reason := reason, withholdCount := 0 } }
                ∧ t.alarmStands (if f.kind = .changeover then srcChangeoverWithheld else srcCueWithheld) = true
                ∧ (∀ id, id ≠ f.id → t.liveCue id = s.liveCue id)
                ∧ AlarmsOnly { s with cues := { s.cues with live := t.cues.live } } t)
            ∧ (c.runtime.state = .withheld →
              t.liveCue f.id = some { c with runtime := { c.runtime with reason := reason } }
                ∧ (∀ id, id ≠ f.id → t.liveCue id = s.liveCue id)
                ∧ t = { s with cues := { s.cues with live := t.cues.live } }))
      ∧ (s.verdict c = .completes → s.liveCue f.id = some c → s.cues.swapPending = false →
          let t := (s.decideCue c).state
          let short := match c.runtime.dueField with
            | none => 0
            | some d => min 255 (fieldDiff s.fieldCount d).toNat
          t.liveCue f.id = some { c with runtime := { c.runtime with
              state := .done, firedField := some s.fieldCount, shortfall := short, late := decide (0 < short) } }
            ∧ (∀ id, id ≠ f.id → t.liveCue id = s.liveCue id)
            ∧ (0 < short → s.lateMasked f.chain = false → t.alarmStands srcCueLate = true)
            ∧ (f.snapshot = true → s.snaps.settings.cue = true → short = 0 → s.snapshotFits = true →
                s.snaps.store ++ [s.newSnapshot .cue (some f.id)] <+: t.snaps.store)
            ∧ (f.snapshot = false ∨ s.snaps.settings.cue = false → short = 0 → t.snaps = s.snaps)
            ∧ AlarmsOnly { s with
                cues := { s.cues with live := t.cues.live }
                round := { s.round with sets := s.round.sets.filter (fun a => a.cue != f.id) } } t)

/-- CONFIRM_TIMEOUT, WITHHELD_TOO_LONG: the count that reaches its limit fails the cue with its cause while no swap is pending
(R91, R92, R97). At a field close, the first step of the cue engine counts every FIRED cue whose effect field has come, and fails
it at its kind's limit, or a START at its deadline, E + 25 of the expected field that the model keeps with the cue, its choice
(R92, R97; log 15); the second rechecks every WITHHELD cue, and one that stays WITHHELD
has counted one field, below the limit (R90, R91). -/
def Obligations.CountedOutCueFails : Prop :=
  ∀ (s : State) (id : CueId) (c : Cue), s.liveCue id = some c → s.cues.swapPending = false →
    bankSound s.cues.live = true →
    (s.timesOut c s.fieldCount = true →
        ∃ t, exec (.confirmTimeout id) s = .next t ∧ t.fateOf id = some (.failed, .confirmTimeout)
          ∧ CuesOnly s t)
      ∧ (s.tooLong c = true →
        ∃ t, exec (.withheldTooLong id) s = .next t ∧ t.fateOf id = some (.failed, .withheldTooLong)
          ∧ CuesOnly s t)
      ∧ (∀ f : Field, c.runtime.state = .fired →
          let t := s.countConfirms f
          let count := min 30000 (c.runtime.confirmCount + 1)
          let deadline : Prop := ∃ e, c.runtime.expected = some e ∧ 0 ≤ fieldDiff f (e + 25)
          (∀ limit, (c.fields.kind = .park ∧ limit = (s.chain c.fields.chain).config.spoolLimit)
              ∨ (c.fields.kind = .stop ∧ limit = 250)
              ∨ ((c.fields.kind = .shutter ∨ c.fields.kind = .changeover) ∧ limit = 3) →
            (¬ c.runtime.inEffect f → t.liveCue id = some c)
              ∧ (c.runtime.inEffect f → count < limit →
                  t.liveCue id = some { c with runtime := { c.runtime with confirmCount := count } })
              ∧ (c.runtime.inEffect f → limit ≤ count → t.fateOf id = some (.failed, .confirmTimeout)))
            ∧ (c.fields.kind = .start → ¬ deadline → t.liveCue id = some c)
            ∧ (c.fields.kind = .start → deadline → t.fateOf id = some (.failed, .confirmTimeout)))
      ∧ (∀ skip : List CueId, c.runtime.state = .withheld →
          ∃ d, (s.recheckHeld skip).liveCue id = some d
            ∧ (d.runtime.state = .withheld → id ∉ skip →
                d.runtime.withholdCount = c.runtime.withholdCount + 1 ∧ d.runtime.withholdCount < s.cues.limit)
            ∧ (d.runtime.state = .withheld → id ∈ skip → d.runtime.withholdCount = c.runtime.withholdCount))
/-- FOLLOW_DUE: a FOLLOW cue whose offset is reached has its due field recorded, the fired field it counts from plus its offset;
beyond the late limit it is MISSED, else it leaves ARMED for its decision (R56), the LIVE bank in the order that every step keeps.
The cue engine's work at a field close is counting, rechecking, and the FOLLOW examinations (R90): each examination takes the
first ARMED FOLLOW cue of the LIVE list not yet examined, one that armed in the course of them too, until every ARMED FOLLOW cue
has been examined, each once (R56, R74). -/
def Obligations.FollowerIsDueAfterItsOffset : Prop :=
  (∀ (s : State) (id : CueId) (c : Cue) (fired : Field),
    s.liveCue id = some c → s.cues.swapPending = false → bankSound s.cues.live = true → s.cues.inOrder = true →
    c.runtime.state = .armed → c.fields.release = .follow →
    s.followedField c = some fired → c.fields.offset ≤ ((s.fieldCount - fired).toNat : Int) →
      ∃ t d, exec (.followDue id) s = .next t ∧ t.liveCue id = some d
        ∧ d.runtime.dueField = some (moveField fired c.fields.offset)
        ∧ ((s.cues.limit : Int) < fieldDiff s.fieldCount (moveField fired c.fields.offset) →
            d.runtime.state = .failed ∧ d.runtime.cause = .missed)
        ∧ (fieldDiff s.fieldCount (moveField fired c.fields.offset) ≤ (s.cues.limit : Int) →
            d.runtime.state = .withheld ∨ d.runtime.state = .fired ∨ d.runtime.state = .done)
        ∧ CuesOnly s t)
    ∧ (∀ (s : State) (f : Field), s.cues.swapPending = false → bankSound s.cues.live = true →
        let follows (c : Cue) : Prop := c.runtime.state = .armed ∧ c.fields.release = .follow
        let examined (u : State) (ids : List CueId) : State := ids.foldl (fun v id => v.carryOut [.follow id f]) u
        (∀ skip, s.cueWork f skip = ((s.countConfirms f).recheckHeld skip).examineFollowers f)
          ∧ ∃ ids : List CueId, ids.Nodup ∧ s.examineFollowers f = examined s ids
            ∧ (∀ c ∈ (s.examineFollowers f).cues.live, follows c → c.fields.id ∈ ids)
            ∧ (∀ done id rest, ids = done ++ id :: rest →
                ∃ front c back, (examined s done).cues.live = front ++ c :: back ∧ c.fields.id = id ∧ follows c
                  ∧ id ∉ done ∧ ∀ b ∈ front, follows b → b.fields.id ∈ done))
/-! ### Groups -/

/-- MUX_REPORT: the first valid report of the window stores input and fault flag, and the air holder is the chain mapped to the
input unless that chain is ABSENT (R127, R128). A fault flag fails the changeover in flight MUX FAULT, and with none in flight its
rise raises CHANGEOVER FAILED (R133). Without it, a report from the effect field on confirms a changeover it shows, leaves one that
still shows the outgoing chain, and contradicts any other (R132); swaps not pending. A malformed report (R127, R205) counts for its
window and changes nothing else. -/
def Obligations.MuxReportMakesTheAirHolder : Prop :=
  (∀ (s : State) (g : GroupId) (dest : Station) (payload : List Byte) (input : Fin 5) (fault : Bool),
    s.inWindow = true → dest = 0 ∨ dest = 15 → s.round.reported.contains (groupAddress g) = false →
    decodeMuxReport payload = some (input, fault) →
      ∃ t, exec (.muxReport (groupAddress g) dest payload) s = .next t
        ∧ TrackingOnly ((s.listening.noteReported (groupAddress g)).setGroup g
            { s.group g with selected := some input, fault := fault }) t
        ∧ (t.group g).holder = ((t.group g).shown).filter (fun n => (t.chain n).state != .absent)
        ∧ (∀ n, (t.chain n).tracked = (s.chain n).tracked)
        ∧ (t.group g).shown = (if h : input.val = 0 then none else (s.group g).map[(⟨input.val - 1, by omega⟩ : Fin 4)])
        ∧ ((s.group g).inFlight = none → fault = true → (s.group g).fault = false →
            t.alarmStands srcChangeoverFailed = true)
        ∧ ((s.group g).inFlight = none → fault = false ∨ (s.group g).fault = true →
            s.alarms.isPending srcChangeoverFailed = false → t.alarms.isPending srcChangeoverFailed = false)
        ∧ (∀ x c, (s.group g).inFlight = some x → s.liveCue x.cue = some c → c.fields.kind = .changeover →
            c.runtime.state = .fired → s.cues.swapPending = false → bankSound s.cues.live = true →
              let judged := c.runtime.inEffect s.round.fieldCount
              let shown := (t.group g).shown
              let cleared : Prop := (t.group g).inFlight.map InFlight.cue ≠ some x.cue
              let stays : Prop := t.liveCue x.cue = some c ∧ (t.group g).inFlight = some x
              (fault = true → t.fateOf x.cue = some (.failed, .muxFault) ∧ cleared
                  ∧ t.alarmStands srcChangeoverFailed = true)
                ∧ (fault = false → ¬ judged → stays)
                ∧ (fault = false → judged → shown = some x.incoming →
                    (t.liveCue x.cue).map (fun d => d.runtime.state) = some .done ∧ cleared)
                ∧ (fault = false → judged → shown ≠ some x.incoming → shown = x.outgoing → stays)
                ∧ (fault = false → judged → shown ≠ some x.incoming → shown ≠ x.outgoing →
                    t.fateOf x.cue = some (.failed, .contradicted) ∧ cleared
                      ∧ t.alarmStands srcChangeoverFailed = true)))
    ∧ (∀ (s : State) (g : GroupId) (dest : Station) (payload : List Byte),
        s.inWindow = true → dest = 0 ∨ dest = 15 → s.round.reported.contains (groupAddress g) = false →
        (payload.length ≠ 2 ∨ ∃ input fault, payload = [input, fault] ∧ (4 < input.toNat ∨ 1 < fault.toNat)) →
          exec (.muxReport (groupAddress g) dest payload) s
            = .next { s.listening with round := { s.round with reported := s.round.reported ++ [groupAddress g] } })

/-- An air fault of one cause is raised once in a tenure: with the cause not in the set AIR FAULT is raised with its detail and the
cause is added, with it there nothing changes (R135, R140). A derivation that keeps the holder changes nothing; one that changes
it empties the set, and a new holder is judged at once, SPEED and RUN-OUT only on an update of the field in force (R128, R135,
R136). -/
def Obligations.AirFaultIsRaisedOncePerTenure : Prop :=
  ∀ (s : State) (g : GroupId),
    let four (cause : Cause) : Prop := cause = .faulted ∨ cause = .speed ∨ cause = .silent ∨ cause = .runOut
    (∀ (n : ChainNo) (cause : Cause), four cause → (s.group g).causes.has cause = true → s.airFault g n cause = s)
      ∧ (∀ (n m : ChainNo) (cause : Cause), four cause → (s.group g).causes.has cause = false →
          let t := s.airFault g n cause
          let detail : Detail := { chain := some n, group := some g, cause := cause, field := s.round.fieldCount }
          t.alarmStands srcAirFault = true
            ∧ (∀ other, four other → (t.group g).causes.has other = (other == cause || (s.group g).causes.has other))
            ∧ AlarmsOnly (s.setGroup g { s.group g with causes := (t.group g).causes }) t
            ∧ (s.alarms.isPending srcAirFault = false →
                (∃ p, t.alarms.pending[srcAirFault] = some p ∧ p.again = false ∧ p.detail = detail)
                  ∨ ∃ e ∈ t.alarms.inService, e.source = srcAirFault ∧ e.again = false ∧ e.detail = detail)
            ∧ t.airFault g m cause = t)
      ∧ (let shown := ((s.group g).shown).filter (fun n => (s.chain n).state != .absent)
          let t := s.deriveHolder g
          (shown = (s.group g).holder → t = s)
            ∧ (shown = none → (s.group g).holder ≠ none → t = s.setGroup g { s.group g with holder := none, causes := {} })
            ∧ (∀ n, shown = some n → (s.group g).holder ≠ some n →
                let r := s.chain n
                let fresh : Prop := s.cues.updateField[n] = some s.round.fieldCount
                AlarmsOnly (s.setGroup g { s.group g with holder := some n, causes := (t.group g).causes }) t
                  ∧ ((t.group g).causes.has .faulted = true ↔ r.state = .faulted)
                  ∧ ((t.group g).causes.has .silent = true ↔ r.stale = true)
                  ∧ ((t.group g).causes.has .speed = true ↔
                      fresh ∧ r.reported.motor ≠ .atSpeed ∧ ∃ e, r.commanded.motion = .run e)
                  ∧ ((t.group g).causes.has .runOut = true ↔
                      fresh ∧ r.config.runOut ≠ 0 ∧ r.config.runOut.toNat ≤ r.reported.frame.toNat)
                  ∧ (∀ cause, four cause → (t.group g).causes.has cause = true → t.alarmStands srcAirFault = true)))
/-- SET GROUP: refused BAD FIELD for a group or an entry that is none, or a chain given twice; then BUSY with a changeover in flight,
then BAD REFERENCE for a chain of the other group; else the map is replaced and the air holder derived afresh (R125, R126, R128). -/
def Obligations.SetGroupMapsAndDerives : Prop :=
  ∀ (s : State) (group a b c d : Byte), s.deskReady = true →
    let u := s.listening
    let entries := [a, b, c, d]
    (¬ (group = 1 ∨ group = 2) ∨ (∃ x ∈ entries, 8 < x.toNat) ∨ ¬ entries.Pairwise (fun x y => x = y → x = 0) →
        exec (.setGroup [group, a, b, c, d]) s = .next (u.answered 0x11 (byteKey group) (some .badField) []))
      ∧ (∀ (g : GroupId) (m : Vector (Option ChainNo) 4), groupOfCode group = some g →
        [mapEntry a, mapEntry b, mapEntry c, mapEntry d] = m.toList.map some → hasDuplicate m.toList = false →
          ((s.group g).inFlight.isSome = true →
              exec (.setGroup [group, a, b, c, d]) s = .next (u.answered 0x11 (byteKey group) (some .busy) []))
            ∧ ((s.group g).inFlight = none → (∃ n, some n ∈ m.toList ∧ ((s.group g.other).inputOf n).isSome = true) →
              exec (.setGroup [group, a, b, c, d]) s = .next (u.answered 0x11 (byteKey group) (some .badReference) []))
            ∧ ((s.group g).inFlight = none → (∀ n, some n ∈ m.toList → (s.group g.other).inputOf n = none) →
              ∃ t, exec (.setGroup [group, a, b, c, d]) s = .next t ∧ (t.group g).map = m
                ∧ (t.group g).holder = ((t.group g).shown).filter (fun n => (t.chain n).state != .absent)
                ∧ t.group g.other = s.group g.other ∧ t.chains = s.chains
                ∧ TrackingOnly ((u.setGroup g { s.group g with map := m }).answered 0x11 (byteKey group) none []) t))

/-! ### Configuration -/

/-- SET CHAIN that does not disable the chain replaces the configuration part, clamped, and nothing else, an enabled chain staying
ABSENT till it reports; a change of cadence drops the reference of an AT-SPEED chain and clears its slip count (R21 to R23). One
that disables a chain makes it ABSENT, its flags and counts cleared, and fails its FIRED cues CHAIN LOST while no swap is pending
(R22, R101). A chain, an enabled value or a cadence that is none is refused BAD FIELD (R21). -/
def Obligations.SetChainConfiguresOrDisables : Prop :=
  ∀ (s : State) (chain enabled cadence r l p0 p1 o0 o1 : Byte), s.deskReady = true →
    let command : Instr := .setChain [chain, enabled, cadence, r, l, p0, p1, o0, o1]
    (chain.toNat < 1 ∨ 8 < chain.toNat ∨ 2 ≤ enabled.toNat ∨ 2 ≤ cadence.toNat →
        exec command s = .next (s.listening.answered 0x10 (byteKey chain) (some .badField) []))
      ∧ (∀ (n : ChainNo) (e : Bool) (c : Cadence), indexOf 8 chain = some n → yesNo enabled = some e →
        cadenceOf cadence = some c →
        let configured : ChainRecord := { s.chain n with config :=
          { enabled := e, cadence := c, runUp := max 1 (min 250 r.toNat), lampLead := min 250 l.toNat,
            spoolLimit := max 250 (min 30000 (word p0 p1).toNat), runOut := word o0 o1 } }
        let answeredWith (x : ChainRecord) := exec command s
          = .next ((s.listening.setChain n x).answered 0x10 (byteKey chain) none [])
        ((s.chain n).config.enabled = false ∨ e = true → c = (s.chain n).config.cadence → answeredWith configured)
          ∧ ((s.chain n).config.enabled = false ∨ e = true → c ≠ (s.chain n).config.cadence →
              (s.chain n).state ≠ .atSpeed → answeredWith configured)
          ∧ ((s.chain n).config.enabled = false ∨ e = true → c ≠ (s.chain n).config.cadence →
              (s.chain n).state = .atSpeed → answeredWith { configured with referenceDropped := true, slipCount := 0 })
          ∧ ((s.chain n).config.enabled = true → e = false →
            ∃ t, exec command s = .next t
              ∧ (t.chain n).state = .absent ∧ (t.chain n).config = configured.config ∧ (t.chain n).heard = false
              ∧ (t.chain n).stale = false ∧ (t.chain n).coasted = false ∧ (t.chain n).missingCount = 0
              ∧ (t.chain n).coastCount = 0 ∧ (t.chain n).slipCount = 0 ∧ (t.chain n).faultCause = .none
              ∧ (t.chain n).reported = (s.chain n).reported
              ∧ (∀ m, m ≠ n → (t.chain m).tracked = (s.chain m).tracked)
              ∧ TrackingOnly (s.listening.answered 0x10 (byteKey chain) none []) t
              ∧ (s.cues.swapPending = false → bankSound s.cues.live = true →
                  ∀ id d, s.liveCue id = some d → d.runtime.state = .fired → d.fields.chain = n →
                    t.fateOf id = some (.failed, .chainLost))))
/-- CLEAR FAULT: refused BAD FIELD for a chain that is none; accepted without effect for a chain that is not FAULTED, STILL FAULTY
while the last report shows the fault, else the state follows the motor (R31). -/
def Obligations.ClearFaultRederivesTheState : Prop :=
  ∀ (s : State) (chain : Byte), s.deskReady = true →
    let u := s.listening
    (chain.toNat < 1 ∨ 8 < chain.toNat →
        exec (.clearFault [chain]) s = .next (u.answered 0x12 (byteKey chain) (some .badField) []))
      ∧ (∀ n : ChainNo, indexOf 8 chain = some n →
        let r := s.chain n
        (r.state ≠ .faulted → exec (.clearFault [chain]) s = .next (u.answered 0x12 (byteKey chain) none []))
          ∧ (r.state = .faulted → (r.reported.brk = true ∨ r.reported.gate = true ∨ r.reported.lamp = .failed) →
              exec (.clearFault [chain]) s = .next (u.answered 0x12 (byteKey chain) (some .stillFaulty) []))
          ∧ (r.state = .faulted → r.reported.brk = false → r.reported.gate = false → r.reported.lamp ≠ .failed →
              ∃ t, exec (.clearFault [chain]) s = .next t
                ∧ (t.chain n).state = stateByMotor r.reported r.commanded.parkTarget
                ∧ (t.chain n).faultCause = .none ∧ (t.chain n).slipCount = 0
                ∧ (t.chain n).stale = r.stale ∧ (t.chain n).reported = r.reported
                ∧ (∀ m, m ≠ n → (t.chain m).tracked = (s.chain m).tracked)
                ∧ TrackingOnly (u.answered 0x12 (byteKey chain) none []) t))

/-- SET PERMIT replaces all four selectors and sixteen entries of its table at once, and a table or selector that is none is refused
with BAD FIELD (R109). A cue that names no table is permitted; else the entry at the index that the four conditions form, selector 1
of lowest weight, decides (R110), and each condition is read as Table 6-1 says (R111). -/
def Obligations.SetPermitReplacesTheTable : Prop :=
  (∀ (s : State) (table a b c d e0 e1 : Byte), s.deskReady = true →
    (∀ t w x y z, indexOf 8 table = some t → conditionOf a = some w → conditionOf b = some x → conditionOf c = some y →
        conditionOf d = some z →
        exec (.setPermit [table, a, b, c, d, e0, e1]) s
          = .next (({ s.listening with
              permits := s.permits.set t { selectors := ⟨#[w, x, y, z], rfl⟩, entries := word e0 e1 } } : State).answered
              0x13 (byteKey table) none []))
      ∧ (indexOf 8 table = none ∨ conditionOf a = none ∨ conditionOf b = none ∨ conditionOf c = none ∨ conditionOf d = none →
        exec (.setPermit [table, a, b, c, d, e0, e1]) s
          = .next (s.listening.answered 0x13 (byteKey table) (some .badField) [])))
    ∧ (∀ (s : State) (cue : Cue),
        let n := cue.fields.chain
        let reference := cue.fields.reference.getD n
        let mark (m : ChainNo) : Prop := s.windowCovers m (s.chain m).reported.frame (fun e => e = .mark)
        (cue.fields.permit = none → s.permitted cue = true)
          ∧ (∀ t, cue.fields.permit = some t →
              let bit (i : Fin 4) : Nat := if s.condition cue s.permits[t].selectors[i] = true then 1 else 0
              s.permitted cue = s.permits[t].entries.getLsbD (bit 0 + 2 * bit 1 + 4 * bit 2 + 8 * bit 3))
          ∧ s.condition cue .always = true
          ∧ (s.condition cue .incomingReady = true ↔ s.readyFor n)
          ∧ (s.condition cue .atSpeed = true ↔ (s.chain n).state = .atSpeed)
          ∧ (s.condition cue .clean = true ↔ (s.chain n).state ≠ .faulted ∧ (s.chain n).stale = false)
          ∧ (s.condition cue .referenceOnAir = true ↔
              ∃ g i, s.groupOf n = some (g, i) ∧ (s.group g).holder = some reference)
          ∧ (s.condition cue .inMark = true ↔ mark n)
          ∧ (s.condition cue .referenceInMark = true ↔ mark reference)
          ∧ (s.condition cue .hold = true ↔ s.hold.accepted = some .closed)
          ∧ s.condition cue .takeGiven = cue.runtime.takeGiven
          ∧ s.condition cue .rehearse = s.cues.rehearse
          ∧ (∀ k, s.condition cue (.watch k) = s.watches.watches[k].output))
/-- SET WINDOW stores its window with the bounds in order, CLEAR WINDOW empties it, and neither changes anything else but class
5; a window, a chain or an effect that is none is refused BAD FIELD (R113). A chain that is not ABSENT is in mark, or has its
cadence check, CUE LATE or WATCH alarm masked, when a set window of its own with that effect holds the frame, bounds included:
for the cadence check the frame of the report, else the recorded one (R114 to R118). -/
def Obligations.WindowsAreSetInOrderAndCleared : Prop :=
  (∀ (s : State) (window chain f0 f1 l0 l1 effect : Byte), s.deskReady = true →
    let noWindow : Prop := window.toNat < 1 ∨ 16 < window.toNat
    let noEffect : Prop := effect ≠ 0x01 ∧ (effect.toNat ≤ 0x80 ∨ 0x87 < effect.toNat)
    (noWindow ∨ chain.toNat < 1 ∨ 8 < chain.toNat ∨ noEffect →
        exec (.setWindow [window, chain, f0, f1, l0, l1, effect]) s
          = .next (s.listening.answered 0x14 (byteKey window) (some .badField) []))
      ∧ (noWindow →
        exec (.clearWindow [window]) s = .next (s.listening.answered 0x15 (byteKey window) (some .badField) []))
      ∧ (∀ w : WindowNo, indexOf 16 window = some w →
        (∀ n e, indexOf 8 chain = some n → effectOf effect = some e →
            ∃ x : Window, x.chain = n ∧ x.effect = e
              ∧ x.first.toNat = min (word f0 f1).toNat (word l0 l1).toNat
              ∧ x.last.toNat = max (word f0 f1).toNat (word l0 l1).toNat
              ∧ exec (.setWindow [window, chain, f0, f1, l0, l1, effect]) s
                  = .next ((s.listening.putWindow w (some x)).answered 0x14 (byteKey window) none []))
          ∧ exec (.clearWindow [window]) s = .next ((s.listening.putWindow w none).answered 0x15 (byteKey window) none [])))
    ∧ (∀ (s : State) (n : ChainNo) (frame : Frame),
        let recorded := (s.chain n).reported.frame
        (s.inMark n = true ↔ s.windowCovers n recorded (fun e => e = .mark))
          ∧ (s.cadenceMasked n frame = true ↔ s.windowCovers n frame (fun e => ∃ late watch, e = .mask true late watch))
          ∧ (s.lateMasked n = true ↔ s.windowCovers n recorded (fun e => ∃ cadence watch, e = .mask cadence true watch))
          ∧ (s.watchMasked n = true ↔ s.windowCovers n recorded (fun e => ∃ cadence late, e = .mask cadence late true)))
/-- SET WITHHOLD LIMIT, SET ALM THRESHOLD and SET REHEARSE: the figure is clamped to 1 to 250, the level to 7 with the line
judged afresh, the pending records, the list and the settings as they were; SET REHEARSE to clear changes that flag alone, to
set while set already changes nothing, and a value that is neither is BAD FIELD (R53, R104, R169, R194). -/
def Obligations.LimitThresholdAndRehearseAreSet : Prop :=
  ∀ (s : State) (b : Byte), s.deskReady = true →
    let u := s.listening
    exec (.setWithholdLimit [b]) s
        = .next (({ u with cues := { s.cues with limit := max 1 (min 250 b.toNat) } } : State).answered 0x1B none none [])
      ∧ (∃ t : State, exec (.setAlmThreshold [b]) s = .next (t.answered 0x18 none none [])
          ∧ t.alarms.threshold.val = min 7 b.toNat ∧ t.alarms.alm = t.alarms.almWanted
          ∧ t.alarms.pending = s.alarms.pending ∧ t.alarms.inService = s.alarms.inService
          ∧ t = { u with alarms := { s.alarms with threshold := t.alarms.threshold, alm := t.alarms.alm } })
      ∧ exec (.setRehearse [0]) s
          = .next (({ u with cues := { s.cues with rehearse := false } } : State).answered 0x1A none none [])
      ∧ (s.cues.rehearse = true → exec (.setRehearse [1]) s = .next (u.answered 0x1A none none []))
      ∧ (2 ≤ b.toNat → exec (.setRehearse [b]) s = .next (u.answered 0x1A none (some .badField) []))
/-- SET REHEARSE that sets the flag withdraws every waiting set and fails the FIRED cues of those sets UNDELIVERED while no swap is
pending (R104). -/
def Obligations.RehearseWithdrawsWaitingSets : Prop :=
  ∀ s : State, s.deskReady = true → s.cues.rehearse = false → s.cues.swapPending = false → bankSound s.cues.live = true →
    ∃ t, exec (.setRehearse [1]) s = .next t ∧ t.round.sets = []
      ∧ CuesOnly (({ s.listening with cues := { s.cues with rehearse := true } } : State).answered 0x1A none none []) t
      ∧ (∀ id c, s.liveCue id = some c → c.runtime.state = .fired → s.setWaits id = true →
          t.fateOf id = some (.failed, .undelivered))

/-! ### Watches -/

/-- SET WATCH puts the watch at rest with its new configuration, the limit clamped, and withdraws WATCH n when its output was true
(R154, R155). A watch number outside 1 to 16, a cascade from its own or a higher number, as signal or as qualifier, and any
other value without a meaning, is refused BAD FIELD. -/
def Obligations.SetWatchPutsItAtRest : Prop :=
  ∀ (s : State) (watch enabled chain signal qualifier mode edge l0 l1 : Byte), s.deskReady = true →
    (watch.toNat < 1 ∨ 16 < watch.toNat →
        exec (.setWatch [watch, enabled, chain, signal, qualifier, mode, edge, l0, l1]) s
          = .next (s.listening.answered 0x16 (byteKey watch) (some .badField) []))
      ∧ (∀ k : WatchNo, indexOf 16 watch = some k →
        (∀ w, watchOf k enabled chain signal qualifier mode edge (word l0 l1) = some w →
            ∃ t, exec (.setWatch [watch, enabled, chain, signal, qualifier, mode, edge, l0, l1]) s = .next t
              ∧ t.watches.watches[k] = w ∧ w.count = 0 ∧ w.output = false ∧ w.previous = none
              ∧ w.limit = max 1 (min (if w.mode = .count then 65535 else 255) (word l0 l1).toNat)
              ∧ (∀ j, j ≠ k → t.watches.watches[j] = s.watches.watches[j]) ∧ t.watches.seen = s.watches.seen
              ∧ (s.watches.watches[k].output = true → t.alarms.isPending (srcWatch k) = false)
              ∧ (s.watches.watches[k].output = false → t.alarms = s.alarms)
              ∧ AlarmsOnly ({ s.listening with watches := t.watches }.answered 0x16 (byteKey watch) none []) t)
          ∧ ((∃ j : WatchNo, k ≤ j ∧ (signalOf signal = some (.watch j) ∨ signalOf qualifier = some (.watch j))) →
            exec (.setWatch [watch, enabled, chain, signal, qualifier, mode, edge, l0, l1]) s
              = .next (s.listening.answered 0x16 (byteKey watch) (some .badField) []))
          ∧ (watchOf k enabled chain signal qualifier mode edge (word l0 l1) = none →
            exec (.setWatch [watch, enabled, chain, signal, qualifier, mode, edge, l0, l1]) s
              = .next (s.listening.answered 0x16 (byteKey watch) (some .badField) [])))

/-- The modes of a watch from one sample to the next: GAP, DELAY, ONESHOT, COUNT and EDGE (R148 to R152); a GAP at its limit holds
count and output until an edge, and a ONESHOT at rest waits for one. Which edges the setting selects, none with no previous level
(R147), and which changes of a DELAY output it delays (R149). -/
def Obligations.WatchModesCountAsStated : Prop :=
  ∀ (w : Watch) (level : Bool), 1 ≤ w.limit →
    let edge := selectedEdge w.edge w.previous level
    let m := modeStep w level
    (w.previous = none → edge = false)
      ∧ (∀ p, w.previous = some p →
          (w.edge = .rise → (edge = true ↔ p = false ∧ level = true))
            ∧ (w.edge = .fall → (edge = true ↔ p = true ∧ level = false))
            ∧ (w.edge = .both → (edge = true ↔ p ≠ level)))
      ∧ (w.edge = .rise → (delayed w.edge level = true ↔ level = true))
      ∧ (w.edge = .fall → (delayed w.edge level = true ↔ level = false))
      ∧ (w.edge = .both → delayed w.edge level = true)
      ∧ (w.mode = .gap → edge = true → m.count = 0 ∧ m.output = false)
      ∧ (w.mode = .gap → edge = false → w.count = w.limit → m.count = w.limit ∧ m.output = true)
      ∧ (w.mode = .oneshot → w.output = false → edge = false → m.count = w.count ∧ m.output = false)
      ∧ (w.count < w.limit →
        (w.mode = .gap → edge = false → m.count = w.count + 1 ∧ (m.output = true ↔ w.count + 1 = w.limit))
          ∧ (w.mode = .delay → level = w.output → m.count = 0 ∧ m.output = w.output)
          ∧ (w.mode = .delay → level ≠ w.output → delayed w.edge level = false → m.count = 0 ∧ m.output = level)
          ∧ (w.mode = .delay → level ≠ w.output → delayed w.edge level = true →
              if w.count + 1 = w.limit then m.count = 0 ∧ m.output = level else m.count = w.count + 1 ∧ m.output = w.output)
          ∧ (w.mode = .oneshot → w.output = false → edge = true → m.count = 0 ∧ m.output = true)
          ∧ (w.mode = .oneshot → w.output = true →
              if w.count + 1 = w.limit then m.count = 0 ∧ m.output = false else m.count = w.count + 1 ∧ m.output = true)
          ∧ (w.mode = .count → edge = true →
              if w.count + 1 = w.limit then m.count = 0 ∧ m.output = true else m.count = w.count + 1 ∧ m.output = false)
          ∧ (w.mode = .count → edge = false → m.count = w.count ∧ m.output = false)
          ∧ (w.mode = .edge → m.count = w.count ∧ m.output = edge))
/-- WATCH_LIMIT_REACHED: the sample that brings a watch to its limit changes its output and raises or withdraws its alarm; other
watches stay (R148 to R151, R154). -/
def Obligations.WatchLimitChangesTheOutput : Prop :=
  ∀ (s : State) (k : WatchNo), s.reachesLimit s.watches.watches[k] = true →
    ∃ t, exec (.watchLimitReached k) s = .next t
      ∧ t.watches.watches[k] = s.sampledWatch s.watches.watches[k]
      ∧ t.watches.watches[k].output ≠ s.watches.watches[k].output
      ∧ (t.watches.watches[k].output = true → s.watchMasked s.watches.watches[k].chain = false →
          t.alarmStands (srcWatch k) = true)
      ∧ (t.watches.watches[k].output = false → t.alarms.isPending (srcWatch k) = false)
      ∧ (∀ j, j ≠ k → t.watches.watches[j] = s.watches.watches[j]) ∧ t.watches.seen = s.watches.seen
      ∧ AlarmsOnly { s with watches := t.watches } t

/-! ### Alarms -/

/-- Selection takes the most urgent candidate: the smallest level, and among equals the lowest source number (R163). -/
def Obligations.SelectionTakesTheMostUrgent : Prop :=
  ∀ (a : AlarmUnit),
    (∀ x, a.mostUrgent = some x → a.candidate x = true
        ∧ ∀ y, a.candidate y = true → a.level x < a.level y ∨ (a.level x = a.level y ∧ x ≤ y))
      ∧ (a.mostUrgent = none → ∀ y, a.candidate y = false)

/-- ACKNOWLEDGE of the top entry removes it, and selection over what is left enters the most urgent pending source if the list is
empty or its level is more urgent than the new top's, with its ALARM NOTICE; the ALM line is judged, and the reply carries the
source now at the top or none (R163, R164, R166, R195). An entry beneath is NOT TOP, a source not there NOT IN SERVICE, a number
above 41 BAD FIELD, and no refusal changes anything but class 5. The bytes of an ALARM NOTICE (section 12.4; bits without content
are 0, log 51). -/
def Obligations.AcknowledgeRemovesTheTopOnly : Prop :=
  ∀ (s : State) (b : Byte), s.deskReady = true →
    let u := s.listening
    (42 ≤ b.toNat → exec (.acknowledge [b]) s = .next (u.answered 0x20 (byteKey b) (some .badField) []))
      ∧ (∀ src e rest, sourceOf b = some src → s.alarms.inService = e :: rest → e.source = src →
          let left : AlarmUnit := { s.alarms with inService := rest }
          let enters (x : Source) : Prop := left.mostUrgent = some x
            ∧ (rest = [] ∨ ∃ top below, rest = top :: below ∧ left.level x < top.level)
          ∃ t, exec (.acknowledge [b]) s = .next t
            ∧ (∀ x p, enters x → s.alarms.pending[x] = some p →
                t.alarms.inService = { source := x, level := left.level x, again := p.again, detail := p.detail } :: rest
                  ∧ t.alarms.pending = s.alarms.pending.set x none
                  ∧ t.round.notices
                      = (if 16 ≤ s.round.notices.length then s.round.notices.drop 1 else s.round.notices)
                        ++ [{ source := x, level := left.level x, again := p.again, detail := p.detail,
                              inService := rest.length + 1, field := s.round.fieldCount }])
            ∧ ((∀ x, ¬ enters x) → t.alarms.inService = rest ∧ t.alarms.pending = s.alarms.pending
                ∧ t.round.notices = s.round.notices)
            ∧ t.alarms.alm = t.alarms.almWanted
            ∧ AlarmsOnly (u.answered 0x20 (byteKey b) none
                (match t.alarms.inService with
                  | [] => [0, 0]
                  | top :: _ => [1, byteOf top.source.val])) t)
      ∧ (∀ src e rest, sourceOf b = some src → s.alarms.inService = e :: rest → e.source ≠ src →
          s.alarms.isInService src = true → exec (.acknowledge [b]) s = .next (u.answered 0x20 (byteKey b) (some .notTop) []))
      ∧ (∀ src, sourceOf b = some src → s.alarms.isInService src = false →
          exec (.acknowledge [b]) s = .next (u.answered 0x20 (byteKey b) (some .notInService) []))
      ∧ (∀ n : Notice, noticeTelegram n =
          { dest := 14, src := 0, kind := kindAlarmNotice
            payload := [BitVec.ofNat 8 n.source.val, BitVec.ofNat 8 (n.level.val + 128 * n.again.toNat)]
              ++ detailBytes n.detail ++ [BitVec.ofNat 8 n.inService, n.field.extractLsb' 0 8, n.field.extractLsb' 8 8] })
      ∧ (∀ d : Detail,
          let chain := (d.chain.map (fun n => n.val + 1)).getD 0
          let group := match d.group with
            | none => 0
            | some .a => 1
            | some .b => 2
          let cue := d.cue.getD 0
          detailBytes d = [BitVec.ofNat 8 (chain + 16 * group), cue.extractLsb' 0 8, cue.extractLsb' 8 8,
            BitVec.ofNat 8 (causeCode d.cause), d.field.extractLsb' 0 8, d.field.extractLsb' 8 8])
/-- SET ALARM replaces the level, clamped to 7, and the mask of a maskable source, leaves every other setting and the entries of the
list as they stand, and runs selection on the settings so replaced: the most urgent candidate enters service if the list is empty or
its level is more urgent than the top's, with its ALARM NOTICE, and no other pending record changes; the ALM line is judged (R163,
R164, R167, R168). Source 0, AIR FAULT, a source above 41 and a mask that is none are refused BAD FIELD (R157, R167). -/
def Obligations.SetAlarmReplacesTheSetting : Prop :=
  ∀ (s : State) (b level mask : Byte), s.deskReady = true →
    let u := s.listening
    (b = 0 ∨ 42 ≤ b.toNat ∨ 2 ≤ mask.toNat →
        exec (.setAlarm [b, level, mask]) s = .next (u.answered 0x17 (byteKey b) (some .badField) []))
      ∧ (∀ (src : Source) (m : Bool), sourceOf b = some src → src ≠ srcAirFault → yesNo mask = some m →
          ∃ t, exec (.setAlarm [b, level, mask]) s = .next t
            ∧ (t.alarms.level src).val = min 7 level.toNat ∧ t.alarms.masked src = m
            ∧ (∀ x, x ≠ src → t.alarms.settings[x] = s.alarms.settings[x]
                ∧ t.alarms.level x = s.alarms.level x ∧ t.alarms.masked x = s.alarms.masked x)
            ∧ (let replaced : AlarmUnit := { s.alarms with settings := t.alarms.settings }
              let enters (x : Source) : Prop := replaced.mostUrgent = some x
                ∧ (s.alarms.inService = [] ∨ ∃ top below, s.alarms.inService = top :: below ∧ replaced.level x < top.level)
              (∀ x p, enters x → s.alarms.pending[x] = some p →
                  t.alarms.inService
                      = { source := x, level := replaced.level x, again := p.again, detail := p.detail } :: s.alarms.inService
                    ∧ t.alarms.pending = s.alarms.pending.set x none
                    ∧ t.round.notices
                        = (if 16 ≤ s.round.notices.length then s.round.notices.drop 1 else s.round.notices)
                          ++ [{ source := x, level := replaced.level x, again := p.again, detail := p.detail,
                                inService := s.alarms.inService.length + 1, field := s.round.fieldCount }])
                ∧ ((∀ x, ¬ enters x) → t.alarms.inService = s.alarms.inService ∧ t.alarms.pending = s.alarms.pending
                    ∧ t.round.notices = s.round.notices))
            ∧ t.alarms.alm = t.alarms.almWanted ∧ t.alarms.threshold = s.alarms.threshold ∧ t.snaps = s.snaps
            ∧ AlarmsOnly ({ u with alarms := { s.alarms with settings := t.alarms.settings } }.answered 0x17 (byteKey b) none [])
                t)

/-! ### Snapshots -/

/-- A snapshot holds the field count in force, its trigger and tag, and for each chain of the mask, in number order, the record's
state, position, motor and flags, and whether it is the air holder of its group (R175, R176, R177). SNAP and PERIODIC_SNAPSHOT: a
snapshot that fits joins the tail of the store with a cell for each chain of the mask; one that does
not fit changes nothing but the dwell counter, and SNAP is then refused FULL (R176, R180, R181). The almost-full flag is judged
after a snapshot taken and after a removal: its rise raises SNAPSHOT ALMOST FULL, its fall withdraws it, and on an unchanged side
nothing happens (R182). -/
def Obligations.SnapshotIsTakenWholeOrNotAtAll : Prop :=
  ∀ s : State,
    let held := cellsHeld s.snaps.store + 1 + s.snaps.settings.chains.length
    let full : Prop := s.snaps.settings.almostFull ≤ cellsHeld s.snaps.store
    (∀ kind tag, ∃ onAir : ChainNo → Bool,
        (∀ n, onAir n = true ↔ ∃ g i, s.groupOf n = some (g, i) ∧ (s.group g).holder = some n)
          ∧ s.newSnapshot kind tag = {
              field := s.round.fieldCount, kind := kind, tag := tag
              cells := ((List.finRange 8).filter (fun n => s.snaps.settings.chainMask.getLsbD n.val)).map (fun n =>
                { chain := n, state := (s.chain n).state, frame := (s.chain n).reported.frame
                  phase := (s.chain n).reported.phase, motor := (s.chain n).reported.motor, air := onAir n
                  coasted := (s.chain n).coasted, stale := (s.chain n).stale }) })
      ∧
    (s.deskReady = true → s.snapshotFits = true →
        ∃ t, exec (.snap []) s = .next t ∧ s.snaps.store ++ [s.newSnapshot .desk none] <+: t.snaps.store
          ∧ AlarmsOnly (s.listening.answered 0x21 none none (wordBytes s.round.fieldCount)) t
          ∧ t.snaps.almostFull = decide (s.snaps.settings.almostFull ≤ held)
          ∧ (s.snaps.almostFull = false → t.snaps.almostFull = true → t.alarmStands srcAlmostFull = true)
          ∧ (s.snaps.almostFull = true → t.snaps.almostFull = false → t.alarms.isPending srcAlmostFull = false)
          ∧ (s.snaps.almostFull = t.snaps.almostFull →
              t.snaps.store = s.snaps.store ++ [s.newSnapshot .desk none] ∧ t.alarms = s.alarms))
      ∧ (s.deskReady = true → s.snapshotFits = false →
        exec (.snap []) s = .next (s.listening.answered 0x21 none (some .full) []))
      ∧ (s.snaps.dwellReached = true → s.snapshotFits = true →
        ∃ t, exec .periodicSnapshot s = .next t ∧ t.snaps.dwellCount = 0
          ∧ s.snaps.store ++ [s.newSnapshot .periodic none] <+: t.snaps.store
          ∧ AlarmsOnly { s with snaps := { s.snaps with dwellCount := 0 } } t)
      ∧ (s.snaps.dwellReached = true → s.snapshotFits = false →
        exec .periodicSnapshot s = .next { s with snaps := { s.snaps with dwellCount := 0 } })
      ∧ (full → s.snaps.almostFull = false →
          s.judgeAlmostFull.snaps.almostFull = true ∧ s.judgeAlmostFull.alarmStands srcAlmostFull = true)
      ∧ (¬ full → s.snaps.almostFull = true →
          s.judgeAlmostFull.snaps.almostFull = false ∧ s.judgeAlmostFull.alarms.isPending srcAlmostFull = false)
      ∧ ((full ↔ s.snaps.almostFull = true) → s.judgeAlmostFull = s)
/-- SET SNAPSHOT replaces the five settings, clamped, and sets the dwell counter to 0; a trigger outside the three is refused (R177).
A changed chain mask empties the store and makes a SENDING readout CANCELLING with 0 owed and its telegram number kept, its next
cell 1 being the model's choice (log 45); a readout in another state stays (R186). The almost-full flag is then judged against the
cells held and the new level: a rise raises SNAPSHOT ALMOST FULL, a fall withdraws it (R182). -/
def Obligations.SetSnapshotReplacesSettings : Prop :=
  ∀ (s : State) (triggers d0 d1 level mask a0 a1 : Byte), s.deskReady = true →
    (8 ≤ triggers.toNat →
        exec (.setSnapshot [triggers, d0, d1, level, mask, a0, a1]) s
          = .next (s.listening.answered 0x19 none (some .badField) []))
      ∧ (triggers.toNat < 8 →
        ∃ t, exec (.setSnapshot [triggers, d0, d1, level, mask, a0, a1]) s = .next t
          ∧ t.snaps.settings =
              { cue := triggers.getLsbD 0, alarm := triggers.getLsbD 1, periodic := triggers.getLsbD 2,
                dwell := max 1 (min 9999 (word d0 d1).toNat), level := levelOf level, chainMask := mask,
                almostFull := max 1 (min 512 (word a0 a1).toNat) }
          ∧ AlarmsOnly ({ s.listening with snaps := t.snaps }.answered 0x19 none none []) t
          ∧ t.snaps.dwellCount = 0
          ∧ (mask ≠ s.snaps.settings.chainMask → t.snaps.store = []
              ∧ (s.snaps.readout.state = .sending →
                  t.snaps.readout = { state := .cancelling, owed := 0, nextCell := 1, number := s.snaps.readout.number })
              ∧ (s.snaps.readout.state ≠ .sending → t.snaps.readout = s.snaps.readout))
          ∧ (mask = s.snaps.settings.chainMask → s.snaps.store <+: t.snaps.store ∧ t.snaps.readout = s.snaps.readout)
          ∧ (t.snaps.almostFull = decide (max 1 (min 512 (word a0 a1).toNat)
                ≤ if mask = s.snaps.settings.chainMask then cellsHeld s.snaps.store else 0)
              ∧ (s.snaps.almostFull = false → t.snaps.almostFull = true → t.alarmStands srcAlmostFull = true)
              ∧ (s.snaps.almostFull = true → t.snaps.almostFull = false → t.alarms.isPending srcAlmostFull = false)
              ∧ (s.snaps.almostFull = t.snaps.almostFull → t.alarms = s.alarms)
              ∧ (mask = s.snaps.settings.chainMask → s.snaps.almostFull = true ∨ t.snaps.almostFull = false →
                  t.snaps.store = s.snaps.store)))

/-- READ SNAPSHOTS: BUSY during a readout; else the count is clamped to 1 to 16 and to the snapshots held, and the readout starts
(R183). At each request of a fixing the buffer builds SNAPSHOT DATA of the next cells owed, as many as fit and at most 4, END with
the last; a snapshot leaves as its last cell is sent; with none remaining it builds END with no cells, after a cancellation END
CANCELLED, and nothing when the space is too small (R184, R186). The five bytes of a header cell and of a position cell, and the
telegram that carries them (section 12.4; bits without content are 0, log 51). -/
def Obligations.ReadoutStartsWhenIdle : Prop :=
  (∀ (s : State) (b : Byte), s.deskReady = true →
    let owed := min (max 1 (min 16 b.toNat)) s.snaps.store.length
    let u := s.listening
    (s.snaps.readout.state ≠ .idle → exec (.readSnapshots [b]) s = .next (u.answered 0x22 none (some .busy) []))
      ∧ (s.snaps.readout.state = .idle →
        exec (.readSnapshots [b]) s
          = .next ((u.setSnaps { s.snaps with
              readout := { state := .sending, owed := owed, nextCell := 1, number := 0 } }).answered 0x22 none none
              [byteOf owed, itemByte (cellsHeld (s.snaps.store.take owed))])))
    ∧ (∀ (b : SnapshotBuffer) (space : Nat),
        let cells := ((b.store.take b.readout.owed).flatMap (fun x => headerBytes x :: x.cells.map positionBytes)).drop
          (b.readout.nextCell - 1)
        let k := min 4 (min cells.length ((space - 6) / 5))
        let number := b.readout.number
        (b.readout.state = .idle → b.build space = none)
          ∧ (space < 6 → b.build space = none)
          ∧ (b.readout.state = .cancelling → 6 ≤ space →
              b.build space = some
                { telegram := snapshotDataTelegram number [] true true
                  buffer := { b with readout := { b.readout with state := .idle, number := 0 } } })
          ∧ (b.readout.state = .sending → 6 ≤ space → cells = [] →
              b.build space = some
                { telegram := snapshotDataTelegram number [] true false
                  buffer := { b with readout := { b.readout with state := .idle, number := number + 1 } } })
          ∧ (b.readout.state = .sending → cells ≠ [] → k = 0 → b.build space = none)
          ∧ (b.readout.state = .sending → 6 ≤ space → cells ≠ [] → 0 < k →
              ∃ x gone, b.build space = some x
                ∧ x.telegram = snapshotDataTelegram number (cells.take k) (decide (cells.length ≤ k)) false
                ∧ x.buffer = { b with store := x.buffer.store, readout := x.buffer.readout }
                ∧ x.buffer.readout.state = (if cells.length ≤ k then .idle else .sending)
                ∧ x.buffer.readout.number = number + 1
                ∧ x.buffer.store = b.store.drop gone ∧ x.buffer.readout.owed = b.readout.owed - gone
                ∧ cellsHeld (b.store.take gone) + (x.buffer.readout.nextCell - 1) = b.readout.nextCell - 1 + k
                ∧ ∀ head, x.buffer.store.head? = some head → x.buffer.readout.nextCell ≤ 1 + head.cells.length))
    ∧ (∀ x : Snapshot,
        headerBytes x = [x.field.extractLsb' 0 8, x.field.extractLsb' 8 8,
          BitVec.ofNat 8 (x.cells.length + 16 * (match x.kind with
            | .cue => 0
            | .alarm => 1
            | .periodic => 2
            | .desk => 3)),
          (x.tag.getD 0xFFFF).extractLsb' 0 8, (x.tag.getD 0xFFFF).extractLsb' 8 8])
    ∧ (∀ c : PositionCell,
        positionBytes c = [BitVec.ofNat 8 (c.chain.val + 1 + 16 * chainStateCode c.state),
          c.frame.extractLsb' 0 8, c.frame.extractLsb' 8 8, BitVec.ofNat 8 (c.phase.toNat + 4 * motorCode c.motor),
          BitVec.ofNat 8 (c.air.toNat + 2 * c.coasted.toNat + 4 * c.stale.toNat)])
    ∧ (∀ (number : Nat) (cells : List (List Byte)) (last cancelled : Bool),
        snapshotDataTelegram number cells last cancelled =
          { dest := 14, src := 0, kind := kindSnapshotData
            payload := [BitVec.ofNat 8 number, BitVec.ofNat 8 (cells.length + 64 * last.toNat + 128 * cancelled.toNat)]
              ++ cells.flatten })
/-! ### The desk handler -/

/-- A desk command of any row: a selector that names no command is refused UNKNOWN, a wrong length LENGTH, a command that finds
sixteen replies waiting is discarded (R189, R191), and so is one with no window open (R6, R188). Each of the 34 rows is what its
selector does as a DESK COMMAND; that the row UNKNOWN_SELECTOR, given a selector of the table, acts as that command is the model's
choice (log 31). -/
def Obligations.BadCommandsAreRefusedOrDropped : Prop :=
  ∀ (s : State) (selector : Byte) (p : List Byte),
    (s.deskReady = true → parameterCount selector = none →
        exec (.unknownSelector selector p) s = .next (s.listening.answered selector none (some .unknown) []))
      ∧ (∀ n, s.deskReady = true → parameterCount selector = some n → p.length ≠ n →
        exec (.unknownSelector selector p) s = .next (s.listening.answered selector none (some .length) []))
      ∧ (s.inWindow = true → s.round.replies.length = 16 →
        exec (.unknownSelector selector p) s = .next s.listening)
      ∧ (∀ row ∈ deskRows,
          exec (row.2 p) s = exec (.unknownSelector row.1 p) s
            ∧ (∀ n, s.deskReady = true → parameterCount row.1 = some n → p.length ≠ n →
                exec (row.2 p) s = .next (s.listening.answered row.1 none (some .length) []))
            ∧ (s.inWindow = true → s.round.replies.length = 16 → exec (row.2 p) s = .next s.listening)
            ∧ (s.receiving = true → s.windowOpen = false → exec (row.2 p) s = .next s.listening)
            ∧ (s.receiving = false → exec (row.2 p) s = .next s))
/-- The read commands change nothing but class 5, to whose tail they add their replies, numbered from 1 with the last marked (R190,
R191, R196); a key that is none is refused BAD FIELD, a cue not in its bank NOT FOUND, before the room is tested, and then a read of
more parts than there is room for BUSY, each in one reply (R171, R191, R196 to R200); what is read stands in the data as the model lays it out (R196 to R200; log 18): the items of each answer in turn,
the flag byte of a part first, its first item in bit 0. The codes follow their own tables (section 12.4; log 19); READ CHAIN
leaves out the reference dropped flag (log 46) and gives the motion one word (log 49), READ GROUP has the causes in a byte of
their own (log 50), the third part of READ ALARMS without a source packs its 84 items (log 44), and a DESK REPLY has 0 in bits
without content (log 51). -/
def Obligations.ReadsOnlyQueueReplies : Prop :=
  ∀ s : State, s.deskReady = true →
    let u := s.listening
    let two (selector : Byte) (key : Option (BitVec 16)) (a b : List Byte) : State :=
      u.queueReplies [{ selector := selector, key := key, field := s.fieldCount, part := 1, last := false, data := a },
        { selector := selector, key := key, field := s.fieldCount, part := 2, last := true, data := b }]
    let chainOrNone (x : Option ChainNo) : Nat := (x.map (fun n => n.val + 1)).getD 0
    (∀ (p : List Byte), ∀ c ∈ [Instr.readStatus p, .readChain p, .readGroup p, .readCue p, .readBank p, .readWatch p,
        .readPermit p, .readWindow p, .readAlarms p],
      ∃ replies : List Reply, exec c s = .next (u.queueReplies replies)
        ∧ replies ≠ [] ∧ s.round.replies.length + replies.length ≤ 16
        ∧ (∀ r ∈ replies, r.field = s.round.fieldCount)
        ∧ replies.map Reply.part = (List.range replies.length).map (· + 1)
        ∧ replies.map Reply.last = List.replicate (replies.length - 1) false ++ [true])
      ∧ (let refused (c : Instr) (selector : Byte) (key : Option (BitVec 16)) (r : Reason) : Prop :=
          exec c s = .next (u.answered selector key (some r) [])
        let held := s.round.replies.length
        (∀ b : Byte, b.toNat < 1 ∨ 8 < b.toNat →
            refused (.readChain [b]) 0x31 (byteKey b) .badField ∧ refused (.readPermit [b]) 0x36 (byteKey b) .badField)
          ∧ (∀ b : Byte, b.toNat < 1 ∨ 16 < b.toNat →
            refused (.readWatch [b]) 0x35 (byteKey b) .badField ∧ refused (.readWindow [b]) 0x37 (byteKey b) .badField)
          ∧ (∀ b : Byte, ¬ (b = 1 ∨ b = 2) →
            refused (.readGroup [b]) 0x32 (byteKey b) .badField ∧ refused (.readBank [b]) 0x34 none .badField
              ∧ ∀ i0 i1, refused (.readCue [b, i0, i1]) 0x33 (some (word i0 i1)) .badField)
          ∧ (∀ b : Byte, 42 ≤ b.toNat → b ≠ 0xFF → refused (.readAlarms [b]) 0x38 (byteKey b) .badField)
          ∧ (∀ b name i0 i1, bankOf b = some name →
            (¬ (1 ≤ (word i0 i1).toNat ∧ (word i0 i1).toNat ≤ 999) →
                refused (.readCue [b, i0, i1]) 0x33 (some (word i0 i1)) .badField)
              ∧ (1 ≤ (word i0 i1).toNat → (word i0 i1).toNat ≤ 999 → (∀ c ∈ s.bank name, c.fields.id ≠ word i0 i1) →
                refused (.readCue [b, i0, i1]) 0x33 (some (word i0 i1)) .notFound)
              ∧ (1 ≤ (word i0 i1).toNat → (word i0 i1).toNat ≤ 999 → (∃ c ∈ s.bank name, c.fields.id = word i0 i1) →
                held = 15 → refused (.readCue [b, i0, i1]) 0x33 (some (word i0 i1)) .busy)
              ∧ (16 < held + max 1 (((s.bank name).length + 5) / 6) → refused (.readBank [b]) 0x34 none .busy))
          ∧ (held = 15 → ∀ b : Byte,
            (1 ≤ b.toNat → b.toNat ≤ 8 → refused (.readChain [b]) 0x31 (byteKey b) .busy)
              ∧ (b.toNat ≤ 41 → refused (.readAlarms [b]) 0x38 (byteKey b) .busy))
          ∧ (14 ≤ held → refused (.readAlarms [0xFF]) 0x38 none .busy))
      ∧ (let data := [flagByte [s.cues.rehearse, s.cues.swapPending, s.alarms.alm, !s.alarms.inService.isEmpty, s.snaps.almostFull]]
            ++ wordBytes s.round.fieldCount
            ++ [byteOf (syncCode s.round.sync), byteOf s.round.flywheel, byteOf s.round.broken, byteOf s.cues.live.length,
              byteOf s.cues.preset.length]
            ++ wordBytes (BitVec.ofNat 16 s.cues.limit)
            ++ [byteOf s.alarms.threshold.val, byteOf ((s.alarms.inService.head?.map (fun e => e.source.val)).getD 0),
              byteOf (lineCode s.take.accepted), byteOf (lineCode s.hold.accepted),
              itemByte (cellsHeld s.snaps.store), byteOf (readoutCode s.snaps.readout.state)]
        exec (.readStatus []) s = .next (u.answered 0x30 none none data))
      ∧ (∀ b g, groupOfCode b = some g →
          let r := s.group g
          let flight := r.inFlight
          let out := flight.bind InFlight.outgoing
          let data := [flagByte [r.selected.isSome, r.fault, r.holder.isSome, flight.isSome, out.isSome]]
            ++ r.map.toList.map (fun e => byteOf (chainOrNone e))
            ++ [byteOf ((r.selected.map Fin.val).getD 0), byteOf (chainOrNone r.holder),
              flagByte [r.causes.faulted, r.causes.speed, r.causes.silent, r.causes.runOut]]
            ++ wordBytes ((flight.map InFlight.cue).getD 0)
            ++ [byteOf (chainOrNone (flight.map InFlight.incoming)), byteOf ((flight.map (fun x => x.input.val + 1)).getD 0),
              byteOf (chainOrNone out)]
          exec (.readGroup [b]) s = .next (u.answered 0x32 (byteKey b) none data))
      ∧ (∀ b k, indexOf 16 b = some k →
          let w := s.watches.watches[k]
          let watch := [flagByte [w.enabled, w.qualifier.isSome, w.output, w.previous.isSome, w.previous.getD false],
              byteOf (w.chain.val + 1), byteOf (signalCode w.signal), byteOf ((w.qualifier.map signalCode).getD 0),
              byteOf (modeCode w.mode), byteOf (edgeCode w.edge)]
            ++ wordBytes (BitVec.ofNat 16 w.limit) ++ [itemByte w.count]
          let window (x : Window) : List Byte :=
            [1, byteOf (x.chain.val + 1)] ++ wordBytes x.first ++ wordBytes x.last ++ [effectByte x.effect]
          exec (.readWatch [b]) s = .next (u.answered 0x35 (byteKey b) none watch)
            ∧ (s.windows[k] = none →
                exec (.readWindow [b]) s = .next (u.answered 0x37 (byteKey b) none (List.replicate 7 0)))
            ∧ (∀ x, s.windows[k] = some x →
                exec (.readWindow [b]) s = .next (u.answered 0x37 (byteKey b) none (window x))))
      ∧ (∀ b i, indexOf 8 b = some i →
          exec (.readPermit [b]) s
            = .next (u.answered 0x36 (byteKey b) none
                (s.permits[i].selectors.toList.map (fun x => byteOf (conditionCode x)) ++ wordBytes s.permits[i].entries)))
      ∧ (∀ b name, bankOf b = some name → (s.bank name).length ≤ 6 →
          exec (.readBank [b]) s
            = .next (u.answered 0x34 none none
                ([byteOf (bankCode name), byteOf (s.bank name).length] ++ (s.bank name).flatMap bankEntry)))
      ∧ (∀ b name, bankOf b = some name →
          let bank := s.bank name
          let parts := max 1 ((bank.length + 5) / 6)
          s.round.replies.length + parts ≤ 16 →
            exec (.readBank [b]) s = .next (u.queueReplies ((List.range parts).map (fun i =>
              { selector := 0x34, key := none, field := s.fieldCount, part := i + 1, last := decide (i + 1 = parts),
                data := [b, byteOf bank.length] ++ ((bank.drop (6 * i)).take 6).flatMap bankEntry }))))
      ∧ (s.round.replies.length < 15 →
          (∀ b n, indexOf 8 b = some n →
              let r := s.chain n
              let c := r.commanded
              let first := [flagByte [r.config.enabled, c.parkTarget.isSome], byteOf (cadenceCode r.config.cadence),
                  byteOf r.config.runUp, byteOf r.config.lampLead]
                ++ wordBytes (BitVec.ofNat 16 r.config.spoolLimit) ++ wordBytes r.config.runOut
                ++ [byteOf (motionCode c.motion)] ++ wordBytes (motionWord c.motion)
                ++ [byteOf (lampCommandCode c.lamp), byteOf (shutterCommandCode c.shutter)]
                ++ wordBytes (c.parkTarget.getD 0)
              let second := [flagByte [r.reported.dowser, r.reported.brk, r.reported.gate, r.heard, r.coasted, r.stale]]
                ++ wordBytes r.reported.frame
                ++ [byteOf r.reported.phase.toNat, byteOf (motorCode r.reported.motor), byteOf r.reported.direction.toNat,
                  byteOf (lampCode r.reported.lamp), byteOf r.coastCount, byteOf r.missingCount, byteOf r.slipCount,
                  byteOf (causeCode r.faultCause.asCause), byteOf (chainStateCode r.state)]
              exec (.readChain [b]) s = .next (two 0x31 (byteKey b) first second))
            ∧ (∀ b src, sourceOf b = some src →
              let a := s.alarms
              let p := a.pending[src]
              let first := [flagByte [a.masked src, p.isSome, (p.map PendingRecord.again).getD false], byteOf (a.level src).val]
                ++ ((p.map (fun x => detailBytes x.detail)).getD (List.replicate 6 0))
              (a.isInService src = false →
                  exec (.readAlarms [b]) s = .next (two 0x38 (byteKey b) first (List.replicate 10 0)))
                ∧ (∀ above e below, a.inService = above ++ e :: below → e.source = src →
                    (∀ x ∈ above, x.source ≠ src) →
                    exec (.readAlarms [b]) s = .next (two 0x38 (byteKey b) first
                      ([1, byteOf (above.length + 1), byteOf src.val, byteOf (e.level.val + if e.again then 128 else 0)]
                        ++ detailBytes e.detail))))
            ∧ (∀ b i0 i1 name c, bankOf b = some name → goodId (word i0 i1) = true →
              findCue (s.bank name) (word i0 i1) = some c →
              let f := c.fields
              let r := c.runtime
              let first := [flagByte [f.reference.isSome, f.follow.isSome, f.permit.isSome, f.snapshot, f.sense.isSome]]
                ++ wordBytes f.id ++ [byteOf (f.chain.val + 1), byteOf (kindCode f.kind), byteOf (chainOrNone f.reference)]
                ++ wordBytes f.frame ++ wordBytes (BitVec.ofInt 16 f.offset) ++ [byteOf (releaseCode f.release)]
                ++ wordBytes (f.follow.getD 0)
                ++ [byteOf ((f.permit.map (fun i => i.val + 1)).getD 0), byteOf ((f.sense.map senseCode).getD 0)]
              let second := [flagByte [r.late, r.dueField.isSome, r.firedField.isSome, r.lampSent, r.takeGiven, r.rehearsed,
                  r.effectField.isSome], byteOf (cueStateCode r.state), byteOf r.shortfall]
                ++ wordBytes (r.dueField.getD 0) ++ wordBytes (r.firedField.getD 0)
                ++ [byteOf (causeCode r.reason.asCause), byteOf r.withholdCount, itemByte r.confirmCount,
                  byteOf (causeCode r.cause.asCause)] ++ wordBytes (r.effectField.getD 0)
              exec (.readCue [b, i0, i1]) s = .next (two 0x33 (some (word i0 i1)) first second)))
      ∧ (s.round.replies.length < 14 →
          let a := s.alarms
          let part (i : Nat) (last : Bool) (data : List Byte) : Reply :=
            { selector := 0x38, key := none, field := s.fieldCount, part := i, last := last, data := data }
          let entries (l : List Entry) : List Byte :=
            l.flatMap (fun e => [byteOf e.source.val, byteOf (e.level.val + if e.again then 128 else 0)])
          ∃ third : Vector Byte 11,
            (∀ src : Source,
                third[src.val / 4].getLsbD (2 * (src.val % 4)) = a.pending[src].isSome
                  ∧ third[src.val / 4].getLsbD (2 * (src.val % 4) + 1) = (a.pending[src].map PendingRecord.again).getD false)
              ∧ exec (.readAlarms [0xFF]) s = .next (u.queueReplies
                  [part 1 false ([flagByte [a.alm], byteOf a.threshold.val, byteOf a.inService.length]
                      ++ entries (a.inService.take 4)),
                    part 2 false (entries (a.inService.drop 4)), part 3 true third.toList]))
      ∧ (∀ l : List Bool, l.length ≤ 8 → ∀ i, i < 8 → (flagByte l).getLsbD i = l.getD i false)
      ∧ (∀ w : BitVec 16, wordBytes w = [w.extractLsb' 0 8, w.extractLsb' 8 8])
      ∧ (∀ c : Cue, bankEntry c = wordBytes (BitVec.ofNat 16 (c.fields.id.toNat % 1024 + 1024 * cueStateCode c.runtime.state)))
      ∧ [ChainState.absent, .idle, .spooling, .cued, .runUp, .atSpeed, .runDown, .faulted].map chainStateCode = List.range 8
      ∧ [CueState.waiting, .armed, .withheld, .fired, .done, .failed, .abandoned].map cueStateCode = List.range 7
      ∧ [Motor.off, .runUp, .atSpeed, .spooling, .runningDown].map motorCode = List.range 5
      ∧ [Lamp.standby, .up, .failed].map lampCode = List.range 3
      ∧ [SyncState.unlocked, .learning, .locked, .lost].map syncCode = List.range 4
      ∧ [Cadence.twoTwo, .twoThree].map cadenceCode = List.range 2
      ∧ (∀ x y, [Motion.none, .spoolTo x, .run y, .stop].map motionCode = List.range 4
          ∧ [Motion.none, .spoolTo x, .run y, .stop].map motionWord = [0, x, y, 0])
      ∧ [LampCommand.none, .up, .standby].map lampCommandCode = List.range 3
      ∧ [ShutterCommand.none, .opened, .closed].map shutterCommandCode = List.range 3
      ∧ [some Contact.opened, some .closed, none].map lineCode = List.range 3
      ∧ [ReadoutState.idle, .sending, .cancelling].map readoutCode = List.range 3
      ∧ [Cause.none, .confirmTimeout, .undelivered, .contradicted, .withheldTooLong, .chainLost, .chainFaulted, .missed,
          .muxFault, .noTake, .hold, .condition, .permit, .brk, .gate, .lamp, .cadence, .faulted, .speed, .silent,
          .runOut].map causeCode = List.range 21
      ∧ [FaultCause.none, .brk, .gate, .lamp, .cadence].map FaultCause.asCause = [.none, .brk, .gate, .lamp, .cadence]
      ∧ [WithholdReason.none, .noTake, .hold, .condition, .permit].map WithholdReason.asCause
        = [.none, .noTake, .hold, .condition, .permit]
      ∧ [FailureCause.none, .confirmTimeout, .undelivered, .contradicted, .withheldTooLong, .chainLost, .chainFaulted, .missed,
          .muxFault].map (fun x => causeCode x.asCause) = List.range 9
      ∧ [CueKind.park, .start, .changeover, .stop, .shutter, .mark].map kindCode = List.range' 1 6
      ∧ [Release.auto, .take, .gated, .follow].map releaseCode = List.range' 1 4
      ∧ [Sense.opening, .closing].map senseCode = List.range' 1 2
      ∧ [WatchMode.gap, .delay, .oneshot, .count, .edge].map modeCode = List.range' 1 5
      ∧ [EdgeSetting.rise, .fall, .both].map edgeCode = List.range' 1 3
      ∧ [Signal.frameAdvance, .reportPresent, .atSpeed, .motorCommanded, .lampUp, .dowserOpen, .onAir, .inMark, .takeLine,
          .holdLine].map signalCode = List.range' 1 10
      ∧ [Condition.always, .incomingReady, .atSpeed, .clean, .referenceOnAir, .inMark, .referenceInMark, .hold, .takeGiven,
          .rehearse].map conditionCode = List.range 10
      ∧ (∀ k : WatchNo, signalCode (.watch k) = 16 + k.val ∧ conditionCode (.watch k) = 16 + k.val)
      ∧ effectByte .mark = 1
      ∧ (∀ cadence late watch : Bool,
          effectByte (.mask cadence late watch) = BitVec.ofNat 8 (cadence.toNat + 2 * late.toNat + 4 * watch.toNat + 128))
      ∧ ([none, some .busy, some .full, some .duplicate, some .notFound, some .badReference, some .badField, some .live,
          some .notTop, some .notInService, some .stillFaulty, some .unknown, some .length] : List (Option Reason)).map outcomeCode
        = List.range 13
      ∧ (∀ r : Reply, replyTelegram r =
          { dest := 14, src := 0, kind := kindDeskReply
            payload := [r.selector] ++ wordBytes (r.key.getD 0xFFFF) ++ [byteOf (outcomeCode r.outcome)] ++ wordBytes r.field
              ++ [byteOf (r.part + 128 * r.last.toNat), byteOf r.data.length] ++ r.data })

/-- CLEAR: every block drops its runtime state and keeps its configuration (R20, R44, R75, R142, R156, R173, R187), the reply stands
first in class 5, and the eligibility of every chain is then computed on the state so cleared (R201). In that state no alarm is
pending or in service and ALM is inactive, every watch is at rest and no frame seen, the store is empty, a readout that was
SENDING is CANCELLING, every LIVE cue has its entry values. An empty LIVE bank leaves it so. -/
def Obligations.ClearKeepsConfiguration : Prop :=
  ∀ s : State, s.deskReady = true →
    let u : State := { s.listening with
      round := { s.round with
        sets := [], notices := [], replies := [{ selector := 0x3E, field := s.round.fieldCount }], placed := [],
        flywheel := 0, broken := 0 }
      chains := mapTable (fun r => { config := r.config, reported := r.reported }) s.chains
      cues := { s.cues with
        live := s.cues.live.map (fun c => { c with runtime := {} }), swapPending := false,
        updateField := Vector.replicate 8 none }
      groupA := { map := s.groupA.map }
      groupB := { map := s.groupB.map }
      watches := {
        watches := mapTable (fun w => { w with count := 0, output := false, previous := none }) s.watches.watches
        seen := Vector.replicate 8 none }
      alarms := { s.alarms with pending := Vector.replicate 42 none, inService := [], alm := false }
      snaps := { s.snaps with
        store := [], dwellCount := 0, almostFull := false
        readout := match s.snaps.readout.state with
          | .idle => {}
          | .sending => { state := .cancelling, owed := 0, nextCell := 1, number := s.snaps.readout.number }
          | .cancelling => s.snaps.readout } }
    let t := u.carryOut u.eligibleAll
    exec (.clear []) s = .next t ∧ (s.cues.live = [] → t = u)
      ∧ t.round.replies = [{ selector := 0x3E, field := s.round.fieldCount }]
      ∧ t.round.placed = [] ∧ t.round.flywheel = 0 ∧ t.round.broken = 0
      ∧ t.round.allStop = s.round.allStop ∧ t.round.fieldCount = s.round.fieldCount ∧ t.round.sync = s.round.sync
      ∧ t.round.keptInterval = s.round.keptInterval
      ∧ t.cues.preset = s.cues.preset ∧ t.cues.rehearse = s.cues.rehearse ∧ t.cues.limit = s.cues.limit
      ∧ t.cues.live.map Cue.fields = s.cues.live.map Cue.fields
      ∧ (∀ n, (t.chain n).tracked = { config := (s.chain n).config, reported := (s.chain n).reported })
      ∧ (∀ g, (t.group g).map = (s.group g).map ∧ (t.group g).holder = none ∧ (t.group g).selected = none)
      ∧ t.permits = s.permits ∧ t.windows = s.windows ∧ t.take = s.take ∧ t.hold = s.hold
      ∧ t.alarms.settings = s.alarms.settings ∧ t.alarms.threshold = s.alarms.threshold
      ∧ t.snaps.settings = s.snaps.settings ∧ t.watches = u.watches ∧ t.port = s.listening.port ∧ t.pins = s.pins
end

