-- ==== Sys2Proof/Laws/State.lean ====
section
/-! SUPPORT. What each named update of the state leaves in each field, so that no proof unfolds a record update. -/

namespace Sys2Proof.Machine

variable (s : State)

/-! ### setChain -/

@[simp] theorem State.setChain_port (n : ChainNo) (r : ChainRecord) : (s.setChain n r).port = s.port := rfl
@[simp] theorem State.setChain_round (n : ChainNo) (r : ChainRecord) : (s.setChain n r).round = s.round := rfl
@[simp] theorem State.setChain_chains (n : ChainNo) (r : ChainRecord) : (s.setChain n r).chains = s.chains.set n r := rfl
@[simp] theorem State.setChain_cues (n : ChainNo) (r : ChainRecord) : (s.setChain n r).cues = s.cues := rfl
@[simp] theorem State.setChain_permits (n : ChainNo) (r : ChainRecord) : (s.setChain n r).permits = s.permits := rfl
@[simp] theorem State.setChain_windows (n : ChainNo) (r : ChainRecord) : (s.setChain n r).windows = s.windows := rfl
@[simp] theorem State.setChain_take (n : ChainNo) (r : ChainRecord) : (s.setChain n r).take = s.take := rfl
@[simp] theorem State.setChain_hold (n : ChainNo) (r : ChainRecord) : (s.setChain n r).hold = s.hold := rfl
@[simp] theorem State.setChain_groupA (n : ChainNo) (r : ChainRecord) : (s.setChain n r).groupA = s.groupA := rfl
@[simp] theorem State.setChain_groupB (n : ChainNo) (r : ChainRecord) : (s.setChain n r).groupB = s.groupB := rfl
@[simp] theorem State.setChain_watches (n : ChainNo) (r : ChainRecord) : (s.setChain n r).watches = s.watches := rfl
@[simp] theorem State.setChain_alarms (n : ChainNo) (r : ChainRecord) : (s.setChain n r).alarms = s.alarms := rfl
@[simp] theorem State.setChain_snaps (n : ChainNo) (r : ChainRecord) : (s.setChain n r).snaps = s.snaps := rfl
@[simp] theorem State.setChain_pins (n : ChainNo) (r : ChainRecord) : (s.setChain n r).pins = s.pins := rfl
@[simp] theorem State.setChain_now (n : ChainNo) (r : ChainRecord) : (s.setChain n r).now = s.now := rfl
@[simp] theorem State.setChain_inputs (n : ChainNo) (r : ChainRecord) : (s.setChain n r).inputs = s.inputs := rfl
@[simp] theorem State.setChain_choices (n : ChainNo) (r : ChainRecord) : (s.setChain n r).choices = s.choices := rfl
@[simp] theorem State.setChain_pending (n : ChainNo) (r : ChainRecord) : (s.setChain n r).pending = s.pending := rfl

/-! ### setAssembler -/

@[simp] theorem State.setAssembler_port (a : Assembler) : (s.setAssembler a).port = { s.port with assembler := a } := rfl
@[simp] theorem State.setAssembler_round (a : Assembler) : (s.setAssembler a).round = s.round := rfl
@[simp] theorem State.setAssembler_chains (a : Assembler) : (s.setAssembler a).chains = s.chains := rfl
@[simp] theorem State.setAssembler_cues (a : Assembler) : (s.setAssembler a).cues = s.cues := rfl
@[simp] theorem State.setAssembler_permits (a : Assembler) : (s.setAssembler a).permits = s.permits := rfl
@[simp] theorem State.setAssembler_windows (a : Assembler) : (s.setAssembler a).windows = s.windows := rfl
@[simp] theorem State.setAssembler_take (a : Assembler) : (s.setAssembler a).take = s.take := rfl
@[simp] theorem State.setAssembler_hold (a : Assembler) : (s.setAssembler a).hold = s.hold := rfl
@[simp] theorem State.setAssembler_groupA (a : Assembler) : (s.setAssembler a).groupA = s.groupA := rfl
@[simp] theorem State.setAssembler_groupB (a : Assembler) : (s.setAssembler a).groupB = s.groupB := rfl
@[simp] theorem State.setAssembler_watches (a : Assembler) : (s.setAssembler a).watches = s.watches := rfl
@[simp] theorem State.setAssembler_alarms (a : Assembler) : (s.setAssembler a).alarms = s.alarms := rfl
@[simp] theorem State.setAssembler_snaps (a : Assembler) : (s.setAssembler a).snaps = s.snaps := rfl
@[simp] theorem State.setAssembler_pins (a : Assembler) : (s.setAssembler a).pins = s.pins := rfl
@[simp] theorem State.setAssembler_now (a : Assembler) : (s.setAssembler a).now = s.now := rfl
@[simp] theorem State.setAssembler_inputs (a : Assembler) : (s.setAssembler a).inputs = s.inputs := rfl
@[simp] theorem State.setAssembler_choices (a : Assembler) : (s.setAssembler a).choices = s.choices := rfl
@[simp] theorem State.setAssembler_pending (a : Assembler) : (s.setAssembler a).pending = s.pending := rfl

/-! ### setContacts -/

@[simp] theorem State.setContacts_port (x y : Contact) : (s.setContacts x y).port = s.port := rfl
@[simp] theorem State.setContacts_round (x y : Contact) : (s.setContacts x y).round = s.round := rfl
@[simp] theorem State.setContacts_chains (x y : Contact) : (s.setContacts x y).chains = s.chains := rfl
@[simp] theorem State.setContacts_cues (x y : Contact) : (s.setContacts x y).cues = s.cues := rfl
@[simp] theorem State.setContacts_permits (x y : Contact) : (s.setContacts x y).permits = s.permits := rfl
@[simp] theorem State.setContacts_windows (x y : Contact) : (s.setContacts x y).windows = s.windows := rfl
@[simp] theorem State.setContacts_take (x y : Contact) : (s.setContacts x y).take = s.take := rfl
@[simp] theorem State.setContacts_hold (x y : Contact) : (s.setContacts x y).hold = s.hold := rfl
@[simp] theorem State.setContacts_groupA (x y : Contact) : (s.setContacts x y).groupA = s.groupA := rfl
@[simp] theorem State.setContacts_groupB (x y : Contact) : (s.setContacts x y).groupB = s.groupB := rfl
@[simp] theorem State.setContacts_watches (x y : Contact) : (s.setContacts x y).watches = s.watches := rfl
@[simp] theorem State.setContacts_alarms (x y : Contact) : (s.setContacts x y).alarms = s.alarms := rfl
@[simp] theorem State.setContacts_snaps (x y : Contact) : (s.setContacts x y).snaps = s.snaps := rfl
@[simp] theorem State.setContacts_pins (x y : Contact) : (s.setContacts x y).pins = { s.pins with take := contactLevel x, hold := contactLevel y } := rfl
@[simp] theorem State.setContacts_now (x y : Contact) : (s.setContacts x y).now = s.now := rfl
@[simp] theorem State.setContacts_inputs (x y : Contact) : (s.setContacts x y).inputs = s.inputs := rfl
@[simp] theorem State.setContacts_choices (x y : Contact) : (s.setContacts x y).choices = s.choices := rfl
@[simp] theorem State.setContacts_pending (x y : Contact) : (s.setContacts x y).pending = s.pending := rfl

/-! ### setRuntime -/

@[simp] theorem State.setRuntime_port (id : CueId) (r : CueRuntime) : (s.setRuntime id r).port = s.port := rfl
@[simp] theorem State.setRuntime_round (id : CueId) (r : CueRuntime) : (s.setRuntime id r).round = s.round := rfl
@[simp] theorem State.setRuntime_chains (id : CueId) (r : CueRuntime) : (s.setRuntime id r).chains = s.chains := rfl
@[simp] theorem State.setRuntime_cues (id : CueId) (r : CueRuntime) : (s.setRuntime id r).cues = { s.cues with live := putRuntime s.cues.live id r } := rfl
@[simp] theorem State.setRuntime_permits (id : CueId) (r : CueRuntime) : (s.setRuntime id r).permits = s.permits := rfl
@[simp] theorem State.setRuntime_windows (id : CueId) (r : CueRuntime) : (s.setRuntime id r).windows = s.windows := rfl
@[simp] theorem State.setRuntime_take (id : CueId) (r : CueRuntime) : (s.setRuntime id r).take = s.take := rfl
@[simp] theorem State.setRuntime_hold (id : CueId) (r : CueRuntime) : (s.setRuntime id r).hold = s.hold := rfl
@[simp] theorem State.setRuntime_groupA (id : CueId) (r : CueRuntime) : (s.setRuntime id r).groupA = s.groupA := rfl
@[simp] theorem State.setRuntime_groupB (id : CueId) (r : CueRuntime) : (s.setRuntime id r).groupB = s.groupB := rfl
@[simp] theorem State.setRuntime_watches (id : CueId) (r : CueRuntime) : (s.setRuntime id r).watches = s.watches := rfl
@[simp] theorem State.setRuntime_alarms (id : CueId) (r : CueRuntime) : (s.setRuntime id r).alarms = s.alarms := rfl
@[simp] theorem State.setRuntime_snaps (id : CueId) (r : CueRuntime) : (s.setRuntime id r).snaps = s.snaps := rfl
@[simp] theorem State.setRuntime_pins (id : CueId) (r : CueRuntime) : (s.setRuntime id r).pins = s.pins := rfl
@[simp] theorem State.setRuntime_now (id : CueId) (r : CueRuntime) : (s.setRuntime id r).now = s.now := rfl
@[simp] theorem State.setRuntime_inputs (id : CueId) (r : CueRuntime) : (s.setRuntime id r).inputs = s.inputs := rfl
@[simp] theorem State.setRuntime_choices (id : CueId) (r : CueRuntime) : (s.setRuntime id r).choices = s.choices := rfl
@[simp] theorem State.setRuntime_pending (id : CueId) (r : CueRuntime) : (s.setRuntime id r).pending = s.pending := rfl

/-! ### queueSet -/

@[simp] theorem State.queueSet_port (x : ActionSet) : (s.queueSet x).port = s.port := rfl
@[simp] theorem State.queueSet_round (x : ActionSet) : (s.queueSet x).round = { s.round with sets := s.round.sets ++ [x] } := rfl
@[simp] theorem State.queueSet_chains (x : ActionSet) : (s.queueSet x).chains = s.chains := rfl
@[simp] theorem State.queueSet_cues (x : ActionSet) : (s.queueSet x).cues = s.cues := rfl
@[simp] theorem State.queueSet_permits (x : ActionSet) : (s.queueSet x).permits = s.permits := rfl
@[simp] theorem State.queueSet_windows (x : ActionSet) : (s.queueSet x).windows = s.windows := rfl
@[simp] theorem State.queueSet_take (x : ActionSet) : (s.queueSet x).take = s.take := rfl
@[simp] theorem State.queueSet_hold (x : ActionSet) : (s.queueSet x).hold = s.hold := rfl
@[simp] theorem State.queueSet_groupA (x : ActionSet) : (s.queueSet x).groupA = s.groupA := rfl
@[simp] theorem State.queueSet_groupB (x : ActionSet) : (s.queueSet x).groupB = s.groupB := rfl
@[simp] theorem State.queueSet_watches (x : ActionSet) : (s.queueSet x).watches = s.watches := rfl
@[simp] theorem State.queueSet_alarms (x : ActionSet) : (s.queueSet x).alarms = s.alarms := rfl
@[simp] theorem State.queueSet_snaps (x : ActionSet) : (s.queueSet x).snaps = s.snaps := rfl
@[simp] theorem State.queueSet_pins (x : ActionSet) : (s.queueSet x).pins = s.pins := rfl
@[simp] theorem State.queueSet_now (x : ActionSet) : (s.queueSet x).now = s.now := rfl
@[simp] theorem State.queueSet_inputs (x : ActionSet) : (s.queueSet x).inputs = s.inputs := rfl
@[simp] theorem State.queueSet_choices (x : ActionSet) : (s.queueSet x).choices = s.choices := rfl
@[simp] theorem State.queueSet_pending (x : ActionSet) : (s.queueSet x).pending = s.pending := rfl

/-! ### joinSet -/

@[simp] theorem State.joinSet_port (id : CueId) (l : List Telegram) : (s.joinSet id l).port = s.port := rfl
@[simp] theorem State.joinSet_chains (id : CueId) (l : List Telegram) : (s.joinSet id l).chains = s.chains := rfl
@[simp] theorem State.joinSet_cues (id : CueId) (l : List Telegram) : (s.joinSet id l).cues = s.cues := rfl
@[simp] theorem State.joinSet_permits (id : CueId) (l : List Telegram) : (s.joinSet id l).permits = s.permits := rfl
@[simp] theorem State.joinSet_windows (id : CueId) (l : List Telegram) : (s.joinSet id l).windows = s.windows := rfl
@[simp] theorem State.joinSet_take (id : CueId) (l : List Telegram) : (s.joinSet id l).take = s.take := rfl
@[simp] theorem State.joinSet_hold (id : CueId) (l : List Telegram) : (s.joinSet id l).hold = s.hold := rfl
@[simp] theorem State.joinSet_groupA (id : CueId) (l : List Telegram) : (s.joinSet id l).groupA = s.groupA := rfl
@[simp] theorem State.joinSet_groupB (id : CueId) (l : List Telegram) : (s.joinSet id l).groupB = s.groupB := rfl
@[simp] theorem State.joinSet_watches (id : CueId) (l : List Telegram) : (s.joinSet id l).watches = s.watches := rfl
@[simp] theorem State.joinSet_alarms (id : CueId) (l : List Telegram) : (s.joinSet id l).alarms = s.alarms := rfl
@[simp] theorem State.joinSet_snaps (id : CueId) (l : List Telegram) : (s.joinSet id l).snaps = s.snaps := rfl
@[simp] theorem State.joinSet_pins (id : CueId) (l : List Telegram) : (s.joinSet id l).pins = s.pins := rfl
@[simp] theorem State.joinSet_now (id : CueId) (l : List Telegram) : (s.joinSet id l).now = s.now := rfl
@[simp] theorem State.joinSet_inputs (id : CueId) (l : List Telegram) : (s.joinSet id l).inputs = s.inputs := rfl
@[simp] theorem State.joinSet_choices (id : CueId) (l : List Telegram) : (s.joinSet id l).choices = s.choices := rfl
@[simp] theorem State.joinSet_pending (id : CueId) (l : List Telegram) : (s.joinSet id l).pending = s.pending := rfl

/-! ### withdrawSet -/

@[simp] theorem State.withdrawSet_port (id : CueId) : (s.withdrawSet id).port = s.port := rfl
@[simp] theorem State.withdrawSet_round (id : CueId) : (s.withdrawSet id).round = { s.round with sets := s.round.sets.filter (fun a => a.cue != id) } := rfl
@[simp] theorem State.withdrawSet_chains (id : CueId) : (s.withdrawSet id).chains = s.chains := rfl
@[simp] theorem State.withdrawSet_cues (id : CueId) : (s.withdrawSet id).cues = s.cues := rfl
@[simp] theorem State.withdrawSet_permits (id : CueId) : (s.withdrawSet id).permits = s.permits := rfl
@[simp] theorem State.withdrawSet_windows (id : CueId) : (s.withdrawSet id).windows = s.windows := rfl
@[simp] theorem State.withdrawSet_take (id : CueId) : (s.withdrawSet id).take = s.take := rfl
@[simp] theorem State.withdrawSet_hold (id : CueId) : (s.withdrawSet id).hold = s.hold := rfl
@[simp] theorem State.withdrawSet_groupA (id : CueId) : (s.withdrawSet id).groupA = s.groupA := rfl
@[simp] theorem State.withdrawSet_groupB (id : CueId) : (s.withdrawSet id).groupB = s.groupB := rfl
@[simp] theorem State.withdrawSet_watches (id : CueId) : (s.withdrawSet id).watches = s.watches := rfl
@[simp] theorem State.withdrawSet_alarms (id : CueId) : (s.withdrawSet id).alarms = s.alarms := rfl
@[simp] theorem State.withdrawSet_snaps (id : CueId) : (s.withdrawSet id).snaps = s.snaps := rfl
@[simp] theorem State.withdrawSet_pins (id : CueId) : (s.withdrawSet id).pins = s.pins := rfl
@[simp] theorem State.withdrawSet_now (id : CueId) : (s.withdrawSet id).now = s.now := rfl
@[simp] theorem State.withdrawSet_inputs (id : CueId) : (s.withdrawSet id).inputs = s.inputs := rfl
@[simp] theorem State.withdrawSet_choices (id : CueId) : (s.withdrawSet id).choices = s.choices := rfl
@[simp] theorem State.withdrawSet_pending (id : CueId) : (s.withdrawSet id).pending = s.pending := rfl

/-! ### withdrawAllSets -/

@[simp] theorem State.withdrawAllSets_port : (s.withdrawAllSets).port = s.port := rfl
@[simp] theorem State.withdrawAllSets_round : (s.withdrawAllSets).round = { s.round with sets := [] } := rfl
@[simp] theorem State.withdrawAllSets_chains : (s.withdrawAllSets).chains = s.chains := rfl
@[simp] theorem State.withdrawAllSets_cues : (s.withdrawAllSets).cues = s.cues := rfl
@[simp] theorem State.withdrawAllSets_permits : (s.withdrawAllSets).permits = s.permits := rfl
@[simp] theorem State.withdrawAllSets_windows : (s.withdrawAllSets).windows = s.windows := rfl
@[simp] theorem State.withdrawAllSets_take : (s.withdrawAllSets).take = s.take := rfl
@[simp] theorem State.withdrawAllSets_hold : (s.withdrawAllSets).hold = s.hold := rfl
@[simp] theorem State.withdrawAllSets_groupA : (s.withdrawAllSets).groupA = s.groupA := rfl
@[simp] theorem State.withdrawAllSets_groupB : (s.withdrawAllSets).groupB = s.groupB := rfl
@[simp] theorem State.withdrawAllSets_watches : (s.withdrawAllSets).watches = s.watches := rfl
@[simp] theorem State.withdrawAllSets_alarms : (s.withdrawAllSets).alarms = s.alarms := rfl
@[simp] theorem State.withdrawAllSets_snaps : (s.withdrawAllSets).snaps = s.snaps := rfl
@[simp] theorem State.withdrawAllSets_pins : (s.withdrawAllSets).pins = s.pins := rfl
@[simp] theorem State.withdrawAllSets_now : (s.withdrawAllSets).now = s.now := rfl
@[simp] theorem State.withdrawAllSets_inputs : (s.withdrawAllSets).inputs = s.inputs := rfl
@[simp] theorem State.withdrawAllSets_choices : (s.withdrawAllSets).choices = s.choices := rfl
@[simp] theorem State.withdrawAllSets_pending : (s.withdrawAllSets).pending = s.pending := rfl

/-! ### queueNotice -/

@[simp] theorem State.queueNotice_port (x : Notice) : (s.queueNotice x).port = s.port := rfl
@[simp] theorem State.queueNotice_chains (x : Notice) : (s.queueNotice x).chains = s.chains := rfl
@[simp] theorem State.queueNotice_cues (x : Notice) : (s.queueNotice x).cues = s.cues := rfl
@[simp] theorem State.queueNotice_permits (x : Notice) : (s.queueNotice x).permits = s.permits := rfl
@[simp] theorem State.queueNotice_windows (x : Notice) : (s.queueNotice x).windows = s.windows := rfl
@[simp] theorem State.queueNotice_take (x : Notice) : (s.queueNotice x).take = s.take := rfl
@[simp] theorem State.queueNotice_hold (x : Notice) : (s.queueNotice x).hold = s.hold := rfl
@[simp] theorem State.queueNotice_groupA (x : Notice) : (s.queueNotice x).groupA = s.groupA := rfl
@[simp] theorem State.queueNotice_groupB (x : Notice) : (s.queueNotice x).groupB = s.groupB := rfl
@[simp] theorem State.queueNotice_watches (x : Notice) : (s.queueNotice x).watches = s.watches := rfl
@[simp] theorem State.queueNotice_alarms (x : Notice) : (s.queueNotice x).alarms = s.alarms := rfl
@[simp] theorem State.queueNotice_snaps (x : Notice) : (s.queueNotice x).snaps = s.snaps := rfl
@[simp] theorem State.queueNotice_pins (x : Notice) : (s.queueNotice x).pins = s.pins := rfl
@[simp] theorem State.queueNotice_now (x : Notice) : (s.queueNotice x).now = s.now := rfl
@[simp] theorem State.queueNotice_inputs (x : Notice) : (s.queueNotice x).inputs = s.inputs := rfl
@[simp] theorem State.queueNotice_choices (x : Notice) : (s.queueNotice x).choices = s.choices := rfl
@[simp] theorem State.queueNotice_pending (x : Notice) : (s.queueNotice x).pending = s.pending := rfl

/-! ### queueReplies -/

@[simp] theorem State.queueReplies_port (l : List Reply) : (s.queueReplies l).port = s.port := rfl
@[simp] theorem State.queueReplies_round (l : List Reply) : (s.queueReplies l).round = { s.round with replies := s.round.replies ++ l } := rfl
@[simp] theorem State.queueReplies_chains (l : List Reply) : (s.queueReplies l).chains = s.chains := rfl
@[simp] theorem State.queueReplies_cues (l : List Reply) : (s.queueReplies l).cues = s.cues := rfl
@[simp] theorem State.queueReplies_permits (l : List Reply) : (s.queueReplies l).permits = s.permits := rfl
@[simp] theorem State.queueReplies_windows (l : List Reply) : (s.queueReplies l).windows = s.windows := rfl
@[simp] theorem State.queueReplies_take (l : List Reply) : (s.queueReplies l).take = s.take := rfl
@[simp] theorem State.queueReplies_hold (l : List Reply) : (s.queueReplies l).hold = s.hold := rfl
@[simp] theorem State.queueReplies_groupA (l : List Reply) : (s.queueReplies l).groupA = s.groupA := rfl
@[simp] theorem State.queueReplies_groupB (l : List Reply) : (s.queueReplies l).groupB = s.groupB := rfl
@[simp] theorem State.queueReplies_watches (l : List Reply) : (s.queueReplies l).watches = s.watches := rfl
@[simp] theorem State.queueReplies_alarms (l : List Reply) : (s.queueReplies l).alarms = s.alarms := rfl
@[simp] theorem State.queueReplies_snaps (l : List Reply) : (s.queueReplies l).snaps = s.snaps := rfl
@[simp] theorem State.queueReplies_pins (l : List Reply) : (s.queueReplies l).pins = s.pins := rfl
@[simp] theorem State.queueReplies_now (l : List Reply) : (s.queueReplies l).now = s.now := rfl
@[simp] theorem State.queueReplies_inputs (l : List Reply) : (s.queueReplies l).inputs = s.inputs := rfl
@[simp] theorem State.queueReplies_choices (l : List Reply) : (s.queueReplies l).choices = s.choices := rfl
@[simp] theorem State.queueReplies_pending (l : List Reply) : (s.queueReplies l).pending = s.pending := rfl

/-! ### setAlarms -/

@[simp] theorem State.setAlarms_port (a : AlarmUnit) : (s.setAlarms a).port = s.port := rfl
@[simp] theorem State.setAlarms_round (a : AlarmUnit) : (s.setAlarms a).round = s.round := rfl
@[simp] theorem State.setAlarms_chains (a : AlarmUnit) : (s.setAlarms a).chains = s.chains := rfl
@[simp] theorem State.setAlarms_cues (a : AlarmUnit) : (s.setAlarms a).cues = s.cues := rfl
@[simp] theorem State.setAlarms_permits (a : AlarmUnit) : (s.setAlarms a).permits = s.permits := rfl
@[simp] theorem State.setAlarms_windows (a : AlarmUnit) : (s.setAlarms a).windows = s.windows := rfl
@[simp] theorem State.setAlarms_take (a : AlarmUnit) : (s.setAlarms a).take = s.take := rfl
@[simp] theorem State.setAlarms_hold (a : AlarmUnit) : (s.setAlarms a).hold = s.hold := rfl
@[simp] theorem State.setAlarms_groupA (a : AlarmUnit) : (s.setAlarms a).groupA = s.groupA := rfl
@[simp] theorem State.setAlarms_groupB (a : AlarmUnit) : (s.setAlarms a).groupB = s.groupB := rfl
@[simp] theorem State.setAlarms_watches (a : AlarmUnit) : (s.setAlarms a).watches = s.watches := rfl
@[simp] theorem State.setAlarms_alarms (a : AlarmUnit) : (s.setAlarms a).alarms = a := rfl
@[simp] theorem State.setAlarms_snaps (a : AlarmUnit) : (s.setAlarms a).snaps = s.snaps := rfl
@[simp] theorem State.setAlarms_pins (a : AlarmUnit) : (s.setAlarms a).pins = s.pins := rfl
@[simp] theorem State.setAlarms_now (a : AlarmUnit) : (s.setAlarms a).now = s.now := rfl
@[simp] theorem State.setAlarms_inputs (a : AlarmUnit) : (s.setAlarms a).inputs = s.inputs := rfl
@[simp] theorem State.setAlarms_choices (a : AlarmUnit) : (s.setAlarms a).choices = s.choices := rfl
@[simp] theorem State.setAlarms_pending (a : AlarmUnit) : (s.setAlarms a).pending = s.pending := rfl

/-! ### judgeAlm -/

@[simp] theorem State.judgeAlm_port : (s.judgeAlm).port = s.port := rfl
@[simp] theorem State.judgeAlm_round : (s.judgeAlm).round = s.round := rfl
@[simp] theorem State.judgeAlm_chains : (s.judgeAlm).chains = s.chains := rfl
@[simp] theorem State.judgeAlm_cues : (s.judgeAlm).cues = s.cues := rfl
@[simp] theorem State.judgeAlm_permits : (s.judgeAlm).permits = s.permits := rfl
@[simp] theorem State.judgeAlm_windows : (s.judgeAlm).windows = s.windows := rfl
@[simp] theorem State.judgeAlm_take : (s.judgeAlm).take = s.take := rfl
@[simp] theorem State.judgeAlm_hold : (s.judgeAlm).hold = s.hold := rfl
@[simp] theorem State.judgeAlm_groupA : (s.judgeAlm).groupA = s.groupA := rfl
@[simp] theorem State.judgeAlm_groupB : (s.judgeAlm).groupB = s.groupB := rfl
@[simp] theorem State.judgeAlm_watches : (s.judgeAlm).watches = s.watches := rfl
@[simp] theorem State.judgeAlm_alarms : (s.judgeAlm).alarms = { s.alarms with alm := s.alarms.almWanted } := rfl
@[simp] theorem State.judgeAlm_snaps : (s.judgeAlm).snaps = s.snaps := rfl
@[simp] theorem State.judgeAlm_pins : (s.judgeAlm).pins = s.pins := rfl
@[simp] theorem State.judgeAlm_now : (s.judgeAlm).now = s.now := rfl
@[simp] theorem State.judgeAlm_inputs : (s.judgeAlm).inputs = s.inputs := rfl
@[simp] theorem State.judgeAlm_choices : (s.judgeAlm).choices = s.choices := rfl
@[simp] theorem State.judgeAlm_pending : (s.judgeAlm).pending = s.pending := rfl

/-! ### setSnaps -/

@[simp] theorem State.setSnaps_port (b : SnapshotBuffer) : (s.setSnaps b).port = s.port := rfl
@[simp] theorem State.setSnaps_round (b : SnapshotBuffer) : (s.setSnaps b).round = s.round := rfl
@[simp] theorem State.setSnaps_chains (b : SnapshotBuffer) : (s.setSnaps b).chains = s.chains := rfl
@[simp] theorem State.setSnaps_cues (b : SnapshotBuffer) : (s.setSnaps b).cues = s.cues := rfl
@[simp] theorem State.setSnaps_permits (b : SnapshotBuffer) : (s.setSnaps b).permits = s.permits := rfl
@[simp] theorem State.setSnaps_windows (b : SnapshotBuffer) : (s.setSnaps b).windows = s.windows := rfl
@[simp] theorem State.setSnaps_take (b : SnapshotBuffer) : (s.setSnaps b).take = s.take := rfl
@[simp] theorem State.setSnaps_hold (b : SnapshotBuffer) : (s.setSnaps b).hold = s.hold := rfl
@[simp] theorem State.setSnaps_groupA (b : SnapshotBuffer) : (s.setSnaps b).groupA = s.groupA := rfl
@[simp] theorem State.setSnaps_groupB (b : SnapshotBuffer) : (s.setSnaps b).groupB = s.groupB := rfl
@[simp] theorem State.setSnaps_watches (b : SnapshotBuffer) : (s.setSnaps b).watches = s.watches := rfl
@[simp] theorem State.setSnaps_alarms (b : SnapshotBuffer) : (s.setSnaps b).alarms = s.alarms := rfl
@[simp] theorem State.setSnaps_snaps (b : SnapshotBuffer) : (s.setSnaps b).snaps = b := rfl
@[simp] theorem State.setSnaps_pins (b : SnapshotBuffer) : (s.setSnaps b).pins = s.pins := rfl
@[simp] theorem State.setSnaps_now (b : SnapshotBuffer) : (s.setSnaps b).now = s.now := rfl
@[simp] theorem State.setSnaps_inputs (b : SnapshotBuffer) : (s.setSnaps b).inputs = s.inputs := rfl
@[simp] theorem State.setSnaps_choices (b : SnapshotBuffer) : (s.setSnaps b).choices = s.choices := rfl
@[simp] theorem State.setSnaps_pending (b : SnapshotBuffer) : (s.setSnaps b).pending = s.pending := rfl

/-! ### setPreset -/

@[simp] theorem State.setPreset_port (l : List Cue) : (s.setPreset l).port = s.port := rfl
@[simp] theorem State.setPreset_round (l : List Cue) : (s.setPreset l).round = s.round := rfl
@[simp] theorem State.setPreset_chains (l : List Cue) : (s.setPreset l).chains = s.chains := rfl
@[simp] theorem State.setPreset_cues (l : List Cue) : (s.setPreset l).cues = { s.cues with preset := l } := rfl
@[simp] theorem State.setPreset_permits (l : List Cue) : (s.setPreset l).permits = s.permits := rfl
@[simp] theorem State.setPreset_windows (l : List Cue) : (s.setPreset l).windows = s.windows := rfl
@[simp] theorem State.setPreset_take (l : List Cue) : (s.setPreset l).take = s.take := rfl
@[simp] theorem State.setPreset_hold (l : List Cue) : (s.setPreset l).hold = s.hold := rfl
@[simp] theorem State.setPreset_groupA (l : List Cue) : (s.setPreset l).groupA = s.groupA := rfl
@[simp] theorem State.setPreset_groupB (l : List Cue) : (s.setPreset l).groupB = s.groupB := rfl
@[simp] theorem State.setPreset_watches (l : List Cue) : (s.setPreset l).watches = s.watches := rfl
@[simp] theorem State.setPreset_alarms (l : List Cue) : (s.setPreset l).alarms = s.alarms := rfl
@[simp] theorem State.setPreset_snaps (l : List Cue) : (s.setPreset l).snaps = s.snaps := rfl
@[simp] theorem State.setPreset_pins (l : List Cue) : (s.setPreset l).pins = s.pins := rfl
@[simp] theorem State.setPreset_now (l : List Cue) : (s.setPreset l).now = s.now := rfl
@[simp] theorem State.setPreset_inputs (l : List Cue) : (s.setPreset l).inputs = s.inputs := rfl
@[simp] theorem State.setPreset_choices (l : List Cue) : (s.setPreset l).choices = s.choices := rfl
@[simp] theorem State.setPreset_pending (l : List Cue) : (s.setPreset l).pending = s.pending := rfl

/-! ### putWindow -/

@[simp] theorem State.putWindow_port (w : WindowNo) (x : Option Window) : (s.putWindow w x).port = s.port := rfl
@[simp] theorem State.putWindow_round (w : WindowNo) (x : Option Window) : (s.putWindow w x).round = s.round := rfl
@[simp] theorem State.putWindow_chains (w : WindowNo) (x : Option Window) : (s.putWindow w x).chains = s.chains := rfl
@[simp] theorem State.putWindow_cues (w : WindowNo) (x : Option Window) : (s.putWindow w x).cues = s.cues := rfl
@[simp] theorem State.putWindow_permits (w : WindowNo) (x : Option Window) : (s.putWindow w x).permits = s.permits := rfl
@[simp] theorem State.putWindow_windows (w : WindowNo) (x : Option Window) : (s.putWindow w x).windows = s.windows.set w x := rfl
@[simp] theorem State.putWindow_take (w : WindowNo) (x : Option Window) : (s.putWindow w x).take = s.take := rfl
@[simp] theorem State.putWindow_hold (w : WindowNo) (x : Option Window) : (s.putWindow w x).hold = s.hold := rfl
@[simp] theorem State.putWindow_groupA (w : WindowNo) (x : Option Window) : (s.putWindow w x).groupA = s.groupA := rfl
@[simp] theorem State.putWindow_groupB (w : WindowNo) (x : Option Window) : (s.putWindow w x).groupB = s.groupB := rfl
@[simp] theorem State.putWindow_watches (w : WindowNo) (x : Option Window) : (s.putWindow w x).watches = s.watches := rfl
@[simp] theorem State.putWindow_alarms (w : WindowNo) (x : Option Window) : (s.putWindow w x).alarms = s.alarms := rfl
@[simp] theorem State.putWindow_snaps (w : WindowNo) (x : Option Window) : (s.putWindow w x).snaps = s.snaps := rfl
@[simp] theorem State.putWindow_pins (w : WindowNo) (x : Option Window) : (s.putWindow w x).pins = s.pins := rfl
@[simp] theorem State.putWindow_now (w : WindowNo) (x : Option Window) : (s.putWindow w x).now = s.now := rfl
@[simp] theorem State.putWindow_inputs (w : WindowNo) (x : Option Window) : (s.putWindow w x).inputs = s.inputs := rfl
@[simp] theorem State.putWindow_choices (w : WindowNo) (x : Option Window) : (s.putWindow w x).choices = s.choices := rfl
@[simp] theorem State.putWindow_pending (w : WindowNo) (x : Option Window) : (s.putWindow w x).pending = s.pending := rfl

/-! ### setWatch -/

@[simp] theorem State.setWatch_port (k : WatchNo) (w : Watch) : (s.setWatch k w).port = s.port := rfl
@[simp] theorem State.setWatch_round (k : WatchNo) (w : Watch) : (s.setWatch k w).round = s.round := rfl
@[simp] theorem State.setWatch_chains (k : WatchNo) (w : Watch) : (s.setWatch k w).chains = s.chains := rfl
@[simp] theorem State.setWatch_cues (k : WatchNo) (w : Watch) : (s.setWatch k w).cues = s.cues := rfl
@[simp] theorem State.setWatch_permits (k : WatchNo) (w : Watch) : (s.setWatch k w).permits = s.permits := rfl
@[simp] theorem State.setWatch_windows (k : WatchNo) (w : Watch) : (s.setWatch k w).windows = s.windows := rfl
@[simp] theorem State.setWatch_take (k : WatchNo) (w : Watch) : (s.setWatch k w).take = s.take := rfl
@[simp] theorem State.setWatch_hold (k : WatchNo) (w : Watch) : (s.setWatch k w).hold = s.hold := rfl
@[simp] theorem State.setWatch_groupA (k : WatchNo) (w : Watch) : (s.setWatch k w).groupA = s.groupA := rfl
@[simp] theorem State.setWatch_groupB (k : WatchNo) (w : Watch) : (s.setWatch k w).groupB = s.groupB := rfl
@[simp] theorem State.setWatch_watches (k : WatchNo) (w : Watch) : (s.setWatch k w).watches = { s.watches with watches := s.watches.watches.set k w } := rfl
@[simp] theorem State.setWatch_alarms (k : WatchNo) (w : Watch) : (s.setWatch k w).alarms = s.alarms := rfl
@[simp] theorem State.setWatch_snaps (k : WatchNo) (w : Watch) : (s.setWatch k w).snaps = s.snaps := rfl
@[simp] theorem State.setWatch_pins (k : WatchNo) (w : Watch) : (s.setWatch k w).pins = s.pins := rfl
@[simp] theorem State.setWatch_now (k : WatchNo) (w : Watch) : (s.setWatch k w).now = s.now := rfl
@[simp] theorem State.setWatch_inputs (k : WatchNo) (w : Watch) : (s.setWatch k w).inputs = s.inputs := rfl
@[simp] theorem State.setWatch_choices (k : WatchNo) (w : Watch) : (s.setWatch k w).choices = s.choices := rfl
@[simp] theorem State.setWatch_pending (k : WatchNo) (w : Watch) : (s.setWatch k w).pending = s.pending := rfl

/-! ### recordUpdate -/

@[simp] theorem State.recordUpdate_port (n : ChainNo) (u : Field) : (s.recordUpdate n u).port = s.port := rfl
@[simp] theorem State.recordUpdate_round (n : ChainNo) (u : Field) : (s.recordUpdate n u).round = s.round := rfl
@[simp] theorem State.recordUpdate_chains (n : ChainNo) (u : Field) : (s.recordUpdate n u).chains = s.chains := rfl
@[simp] theorem State.recordUpdate_cues (n : ChainNo) (u : Field) : (s.recordUpdate n u).cues = { s.cues with updateField := s.cues.updateField.set n (some u) } := rfl
@[simp] theorem State.recordUpdate_permits (n : ChainNo) (u : Field) : (s.recordUpdate n u).permits = s.permits := rfl
@[simp] theorem State.recordUpdate_windows (n : ChainNo) (u : Field) : (s.recordUpdate n u).windows = s.windows := rfl
@[simp] theorem State.recordUpdate_take (n : ChainNo) (u : Field) : (s.recordUpdate n u).take = s.take := rfl
@[simp] theorem State.recordUpdate_hold (n : ChainNo) (u : Field) : (s.recordUpdate n u).hold = s.hold := rfl
@[simp] theorem State.recordUpdate_groupA (n : ChainNo) (u : Field) : (s.recordUpdate n u).groupA = s.groupA := rfl
@[simp] theorem State.recordUpdate_groupB (n : ChainNo) (u : Field) : (s.recordUpdate n u).groupB = s.groupB := rfl
@[simp] theorem State.recordUpdate_watches (n : ChainNo) (u : Field) : (s.recordUpdate n u).watches = s.watches := rfl
@[simp] theorem State.recordUpdate_alarms (n : ChainNo) (u : Field) : (s.recordUpdate n u).alarms = s.alarms := rfl
@[simp] theorem State.recordUpdate_snaps (n : ChainNo) (u : Field) : (s.recordUpdate n u).snaps = s.snaps := rfl
@[simp] theorem State.recordUpdate_pins (n : ChainNo) (u : Field) : (s.recordUpdate n u).pins = s.pins := rfl
@[simp] theorem State.recordUpdate_now (n : ChainNo) (u : Field) : (s.recordUpdate n u).now = s.now := rfl
@[simp] theorem State.recordUpdate_inputs (n : ChainNo) (u : Field) : (s.recordUpdate n u).inputs = s.inputs := rfl
@[simp] theorem State.recordUpdate_choices (n : ChainNo) (u : Field) : (s.recordUpdate n u).choices = s.choices := rfl
@[simp] theorem State.recordUpdate_pending (n : ChainNo) (u : Field) : (s.recordUpdate n u).pending = s.pending := rfl

/-! ### noteReported -/

@[simp] theorem State.noteReported_port (x : Station) : (s.noteReported x).port = s.port := rfl
@[simp] theorem State.noteReported_round (x : Station) : (s.noteReported x).round = { s.round with reported := s.round.reported ++ [x] } := rfl
@[simp] theorem State.noteReported_chains (x : Station) : (s.noteReported x).chains = s.chains := rfl
@[simp] theorem State.noteReported_cues (x : Station) : (s.noteReported x).cues = s.cues := rfl
@[simp] theorem State.noteReported_permits (x : Station) : (s.noteReported x).permits = s.permits := rfl
@[simp] theorem State.noteReported_windows (x : Station) : (s.noteReported x).windows = s.windows := rfl
@[simp] theorem State.noteReported_take (x : Station) : (s.noteReported x).take = s.take := rfl
@[simp] theorem State.noteReported_hold (x : Station) : (s.noteReported x).hold = s.hold := rfl
@[simp] theorem State.noteReported_groupA (x : Station) : (s.noteReported x).groupA = s.groupA := rfl
@[simp] theorem State.noteReported_groupB (x : Station) : (s.noteReported x).groupB = s.groupB := rfl
@[simp] theorem State.noteReported_watches (x : Station) : (s.noteReported x).watches = s.watches := rfl
@[simp] theorem State.noteReported_alarms (x : Station) : (s.noteReported x).alarms = s.alarms := rfl
@[simp] theorem State.noteReported_snaps (x : Station) : (s.noteReported x).snaps = s.snaps := rfl
@[simp] theorem State.noteReported_pins (x : Station) : (s.noteReported x).pins = s.pins := rfl
@[simp] theorem State.noteReported_now (x : Station) : (s.noteReported x).now = s.now := rfl
@[simp] theorem State.noteReported_inputs (x : Station) : (s.noteReported x).inputs = s.inputs := rfl
@[simp] theorem State.noteReported_choices (x : Station) : (s.noteReported x).choices = s.choices := rfl
@[simp] theorem State.noteReported_pending (x : Station) : (s.noteReported x).pending = s.pending := rfl

/-! ### noteStop -/

@[simp] theorem State.noteStop_port : (s.noteStop).port = { s.port with lastStopEnd := s.now } := rfl
@[simp] theorem State.noteStop_round : (s.noteStop).round = s.round := rfl
@[simp] theorem State.noteStop_chains : (s.noteStop).chains = s.chains := rfl
@[simp] theorem State.noteStop_cues : (s.noteStop).cues = s.cues := rfl
@[simp] theorem State.noteStop_permits : (s.noteStop).permits = s.permits := rfl
@[simp] theorem State.noteStop_windows : (s.noteStop).windows = s.windows := rfl
@[simp] theorem State.noteStop_take : (s.noteStop).take = s.take := rfl
@[simp] theorem State.noteStop_hold : (s.noteStop).hold = s.hold := rfl
@[simp] theorem State.noteStop_groupA : (s.noteStop).groupA = s.groupA := rfl
@[simp] theorem State.noteStop_groupB : (s.noteStop).groupB = s.groupB := rfl
@[simp] theorem State.noteStop_watches : (s.noteStop).watches = s.watches := rfl
@[simp] theorem State.noteStop_alarms : (s.noteStop).alarms = s.alarms := rfl
@[simp] theorem State.noteStop_snaps : (s.noteStop).snaps = s.snaps := rfl
@[simp] theorem State.noteStop_pins : (s.noteStop).pins = s.pins := rfl
@[simp] theorem State.noteStop_now : (s.noteStop).now = s.now := rfl
@[simp] theorem State.noteStop_inputs : (s.noteStop).inputs = s.inputs := rfl
@[simp] theorem State.noteStop_choices : (s.noteStop).choices = s.choices := rfl
@[simp] theorem State.noteStop_pending : (s.noteStop).pending = s.pending := rfl

/-! ### elapse -/

@[simp] theorem State.elapse_round (n : Nat) : (s.elapse n).round = s.round := rfl
@[simp] theorem State.elapse_chains (n : Nat) : (s.elapse n).chains = s.chains := rfl
@[simp] theorem State.elapse_cues (n : Nat) : (s.elapse n).cues = s.cues := rfl
@[simp] theorem State.elapse_permits (n : Nat) : (s.elapse n).permits = s.permits := rfl
@[simp] theorem State.elapse_windows (n : Nat) : (s.elapse n).windows = s.windows := rfl
@[simp] theorem State.elapse_take (n : Nat) : (s.elapse n).take = s.take := rfl
@[simp] theorem State.elapse_hold (n : Nat) : (s.elapse n).hold = s.hold := rfl
@[simp] theorem State.elapse_groupA (n : Nat) : (s.elapse n).groupA = s.groupA := rfl
@[simp] theorem State.elapse_groupB (n : Nat) : (s.elapse n).groupB = s.groupB := rfl
@[simp] theorem State.elapse_watches (n : Nat) : (s.elapse n).watches = s.watches := rfl
@[simp] theorem State.elapse_alarms (n : Nat) : (s.elapse n).alarms = s.alarms := rfl
@[simp] theorem State.elapse_snaps (n : Nat) : (s.elapse n).snaps = s.snaps := rfl
@[simp] theorem State.elapse_pins (n : Nat) : (s.elapse n).pins = s.pins := rfl
@[simp] theorem State.elapse_now (n : Nat) : (s.elapse n).now = s.now + n := rfl
@[simp] theorem State.elapse_inputs (n : Nat) : (s.elapse n).inputs = s.inputs := rfl
@[simp] theorem State.elapse_choices (n : Nat) : (s.elapse n).choices = s.choices := rfl
@[simp] theorem State.elapse_pending (n : Nat) : (s.elapse n).pending = s.pending := rfl

/-! ### setGroup -/

@[simp] theorem State.setGroup_port (g : GroupId) (r : GroupRecord) : (s.setGroup g r).port = s.port := by cases g <;> rfl
@[simp] theorem State.setGroup_round (g : GroupId) (r : GroupRecord) : (s.setGroup g r).round = s.round := by cases g <;> rfl
@[simp] theorem State.setGroup_chains (g : GroupId) (r : GroupRecord) : (s.setGroup g r).chains = s.chains := by cases g <;> rfl
@[simp] theorem State.setGroup_cues (g : GroupId) (r : GroupRecord) : (s.setGroup g r).cues = s.cues := by cases g <;> rfl
@[simp] theorem State.setGroup_permits (g : GroupId) (r : GroupRecord) : (s.setGroup g r).permits = s.permits := by cases g <;> rfl
@[simp] theorem State.setGroup_windows (g : GroupId) (r : GroupRecord) : (s.setGroup g r).windows = s.windows := by cases g <;> rfl
@[simp] theorem State.setGroup_take (g : GroupId) (r : GroupRecord) : (s.setGroup g r).take = s.take := by cases g <;> rfl
@[simp] theorem State.setGroup_hold (g : GroupId) (r : GroupRecord) : (s.setGroup g r).hold = s.hold := by cases g <;> rfl
@[simp] theorem State.setGroup_watches (g : GroupId) (r : GroupRecord) : (s.setGroup g r).watches = s.watches := by cases g <;> rfl
@[simp] theorem State.setGroup_alarms (g : GroupId) (r : GroupRecord) : (s.setGroup g r).alarms = s.alarms := by cases g <;> rfl
@[simp] theorem State.setGroup_snaps (g : GroupId) (r : GroupRecord) : (s.setGroup g r).snaps = s.snaps := by cases g <;> rfl
@[simp] theorem State.setGroup_pins (g : GroupId) (r : GroupRecord) : (s.setGroup g r).pins = s.pins := by cases g <;> rfl
@[simp] theorem State.setGroup_now (g : GroupId) (r : GroupRecord) : (s.setGroup g r).now = s.now := by cases g <;> rfl
@[simp] theorem State.setGroup_inputs (g : GroupId) (r : GroupRecord) : (s.setGroup g r).inputs = s.inputs := by cases g <;> rfl
@[simp] theorem State.setGroup_choices (g : GroupId) (r : GroupRecord) : (s.setGroup g r).choices = s.choices := by cases g <;> rfl
@[simp] theorem State.setGroup_pending (g : GroupId) (r : GroupRecord) : (s.setGroup g r).pending = s.pending := by cases g <;> rfl

/-! ### Reads after writes -/

@[simp] theorem State.chain_setChain_self (n : ChainNo) (r : ChainRecord) : (s.setChain n r).chain n = r := by
  simp [State.chain]

theorem State.chain_setChain_ne (n m : ChainNo) (r : ChainRecord) (h : m ≠ n) : (s.setChain n r).chain m = s.chain m := by
  have : (n : Nat) ≠ m := fun e => h (Fin.ext e.symm)
  simp [State.chain, this]

@[simp] theorem State.group_setGroup_self (g : GroupId) (r : GroupRecord) : (s.setGroup g r).group g = r := by
  cases g <;> rfl

@[simp] theorem State.group_setGroup_other (g : GroupId) (r : GroupRecord) :
    (s.setGroup g r).group g.other = s.group g.other := by
  cases g <;> rfl

theorem State.group_setGroup_ne (g h : GroupId) (r : GroupRecord) (hne : h ≠ g) : (s.setGroup g r).group h = s.group h := by
  cases g <;> cases h <;> first | rfl | exact absurd rfl hne

theorem State.chain_congr {s t : State} (h : t.chains = s.chains) (n : ChainNo) : t.chain n = s.chain n := by
  simp [State.chain, h]

theorem State.group_congr {s t : State} (ha : t.groupA = s.groupA) (hb : t.groupB = s.groupB) (g : GroupId) :
    t.group g = s.group g := by
  cases g <;> simp [State.group, ha, hb]

@[simp] theorem mapTable_getElem {α β : Type} {n : Nat} (f : α → β) (v : Vector α n) (i : Nat) (h : i < n) :
    (mapTable f v)[i] = f v[i] := by
  rcases v with ⟨⟨l⟩, rfl⟩
  simp [mapTable]

/-- A full reset keeps what is no block's state, and resets every block (R19, log 21). -/
theorem State.fullReset_spec :
    s.fullReset = { State.reset with
      port := { State.reset.port with lastStopEnd := s.now }, pins := s.pins, now := s.now, inputs := s.inputs,
      choices := s.choices, pending := s.pending } := rfl

end Sys2Proof.Machine
end

