-- ==== Sys2Proof/Laws/Frames.lean ====
section
/-! SUPPORT. The frames AlarmsOnly, CuesOnly and TrackingOnly compose and include one another. -/

namespace Sys2Proof.Machine

/-! ### AlarmsOnly -/

/-- A state written as the frame allows meets the frame. -/
theorem AlarmsOnly.of {s t : State} (n : List Notice) (p : Vector (Option PendingRecord) 42) (i : List Entry) (a : Bool)
    (st : List Snapshot) (af : Bool)
    (h : t = { s with
      round := { s.round with notices := n }, alarms := { s.alarms with pending := p, inService := i, alm := a },
      snaps := { s.snaps with store := st, almostFull := af } }) : AlarmsOnly s t := by
  subst h; rfl

/-- What meets the frame is written as the frame allows. -/
theorem AlarmsOnly.elim {s t : State} (h : AlarmsOnly s t) :
    ∃ n p i a st af, t = { s with
      round := { s.round with notices := n }, alarms := { s.alarms with pending := p, inService := i, alm := a },
      snaps := { s.snaps with store := st, almostFull := af } } :=
  ⟨_, _, _, _, _, _, h⟩

theorem AlarmsOnly.refl (s : State) : AlarmsOnly s s := rfl

theorem AlarmsOnly.trans {s t u : State} (h : AlarmsOnly s t) (k : AlarmsOnly t u) : AlarmsOnly s u := by
  obtain ⟨_, _, _, _, _, _, rfl⟩ := h.elim
  obtain ⟨n, p, i, a, st, af, rfl⟩ := k.elim
  exact .of n p i a st af rfl

section
variable {s t : State} (h : AlarmsOnly s t)
include h

theorem AlarmsOnly.port : t.port = s.port := by obtain ⟨_, _, _, _, _, _, rfl⟩ := h.elim; rfl
theorem AlarmsOnly.chains : t.chains = s.chains := by obtain ⟨_, _, _, _, _, _, rfl⟩ := h.elim; rfl
theorem AlarmsOnly.cues : t.cues = s.cues := by obtain ⟨_, _, _, _, _, _, rfl⟩ := h.elim; rfl
theorem AlarmsOnly.groupA : t.groupA = s.groupA := by obtain ⟨_, _, _, _, _, _, rfl⟩ := h.elim; rfl
theorem AlarmsOnly.groupB : t.groupB = s.groupB := by obtain ⟨_, _, _, _, _, _, rfl⟩ := h.elim; rfl
theorem AlarmsOnly.watches : t.watches = s.watches := by obtain ⟨_, _, _, _, _, _, rfl⟩ := h.elim; rfl
theorem AlarmsOnly.sets : t.round.sets = s.round.sets := by obtain ⟨_, _, _, _, _, _, rfl⟩ := h.elim; rfl
theorem AlarmsOnly.placed : t.round.placed = s.round.placed := by obtain ⟨_, _, _, _, _, _, rfl⟩ := h.elim; rfl
theorem AlarmsOnly.replies : t.round.replies = s.round.replies := by obtain ⟨_, _, _, _, _, _, rfl⟩ := h.elim; rfl
theorem AlarmsOnly.fieldCount : t.fieldCount = s.fieldCount := by obtain ⟨_, _, _, _, _, _, rfl⟩ := h.elim; rfl
theorem AlarmsOnly.alarmSettings : t.alarms.settings = s.alarms.settings := by
  obtain ⟨_, _, _, _, _, _, rfl⟩ := h.elim; rfl
theorem AlarmsOnly.threshold : t.alarms.threshold = s.alarms.threshold := by
  obtain ⟨_, _, _, _, _, _, rfl⟩ := h.elim; rfl
theorem AlarmsOnly.snapSettings : t.snaps.settings = s.snaps.settings := by
  obtain ⟨_, _, _, _, _, _, rfl⟩ := h.elim; rfl
theorem AlarmsOnly.readout : t.snaps.readout = s.snaps.readout := by obtain ⟨_, _, _, _, _, _, rfl⟩ := h.elim; rfl
theorem AlarmsOnly.dwellCount : t.snaps.dwellCount = s.snaps.dwellCount := by
  obtain ⟨_, _, _, _, _, _, rfl⟩ := h.elim; rfl

theorem AlarmsOnly.chain (n : ChainNo) : t.chain n = s.chain n := State.chain_congr h.chains n

theorem AlarmsOnly.group (g : GroupId) : t.group g = s.group g := State.group_congr h.groupA h.groupB g

end

/-! ### CuesOnly -/

/-- A state written as the frame allows meets the frame. -/
theorem CuesOnly.of {s t : State} (x : List ActionSet) (y : List Placed) (n : List Notice) (v : Vector ChainRecord 8)
    (l p : List Cue) (w : Bool) (fa fb : Option InFlight) (q : Vector (Option PendingRecord) 42) (i : List Entry) (a : Bool)
    (st : List Snapshot) (af : Bool) (hc : ∀ n : ChainNo, v[n].tracked = (s.chain n).tracked)
    (h : t = { s with
      round := { s.round with sets := x, placed := y, notices := n }, chains := v,
      cues := { s.cues with live := l, preset := p, swapPending := w }, groupA := { s.groupA with inFlight := fa },
      groupB := { s.groupB with inFlight := fb }, alarms := { s.alarms with pending := q, inService := i, alm := a },
      snaps := { s.snaps with store := st, almostFull := af } }) : CuesOnly s t := by
  subst h; exact ⟨hc, rfl⟩

/-- What meets the frame is written as the frame allows. -/
theorem CuesOnly.elim {s t : State} (h : CuesOnly s t) :
    ∃ x y n v l p w fa fb q i a st af, (∀ n : ChainNo, v[n].tracked = (s.chain n).tracked) ∧ t = { s with
      round := { s.round with sets := x, placed := y, notices := n }, chains := v,
      cues := { s.cues with live := l, preset := p, swapPending := w }, groupA := { s.groupA with inFlight := fa },
      groupB := { s.groupB with inFlight := fb }, alarms := { s.alarms with pending := q, inService := i, alm := a },
      snaps := { s.snaps with store := st, almostFull := af } } :=
  ⟨_, _, _, _, _, _, _, _, _, _, _, _, _, _, h.1, h.2⟩

theorem CuesOnly.refl (s : State) : CuesOnly s s := ⟨fun _ => rfl, rfl⟩

theorem CuesOnly.trans {s t u : State} (h : CuesOnly s t) (k : CuesOnly t u) : CuesOnly s u := by
  obtain ⟨_, _, _, _, _, _, _, _, _, _, _, _, _, _, hc, rfl⟩ := h.elim
  obtain ⟨x, y, n, v, l, p, w, fa, fb, q, i, a, st, af, kc, rfl⟩ := k.elim
  exact .of x y n v l p w fa fb q i a st af (fun m => (kc m).trans (hc m)) rfl

theorem AlarmsOnly.cuesOnly {s t : State} (h : AlarmsOnly s t) : CuesOnly s t := by
  obtain ⟨n, p, i, a, st, af, rfl⟩ := h.elim
  exact ⟨fun _ => rfl, rfl⟩

section
variable {s t : State} (h : CuesOnly s t)
include h

theorem CuesOnly.port : t.port = s.port := by
  obtain ⟨_, _, _, _, _, _, _, _, _, _, _, _, _, _, _, rfl⟩ := h.elim; rfl
theorem CuesOnly.allStop : t.round.allStop = s.round.allStop := by
  obtain ⟨_, _, _, _, _, _, _, _, _, _, _, _, _, _, _, rfl⟩ := h.elim; rfl
theorem CuesOnly.replies : t.round.replies = s.round.replies := by
  obtain ⟨_, _, _, _, _, _, _, _, _, _, _, _, _, _, _, rfl⟩ := h.elim; rfl
theorem CuesOnly.fieldCount : t.fieldCount = s.fieldCount := by
  obtain ⟨_, _, _, _, _, _, _, _, _, _, _, _, _, _, _, rfl⟩ := h.elim; rfl
theorem CuesOnly.rehearse : t.cues.rehearse = s.cues.rehearse := by
  obtain ⟨_, _, _, _, _, _, _, _, _, _, _, _, _, _, _, rfl⟩ := h.elim; rfl
theorem CuesOnly.limit : t.cues.limit = s.cues.limit := by
  obtain ⟨_, _, _, _, _, _, _, _, _, _, _, _, _, _, _, rfl⟩ := h.elim; rfl
theorem CuesOnly.updateField : t.cues.updateField = s.cues.updateField := by
  obtain ⟨_, _, _, _, _, _, _, _, _, _, _, _, _, _, _, rfl⟩ := h.elim; rfl
theorem CuesOnly.snapSettings : t.snaps.settings = s.snaps.settings := by
  obtain ⟨_, _, _, _, _, _, _, _, _, _, _, _, _, _, _, rfl⟩ := h.elim; rfl
theorem CuesOnly.shown (g : GroupId) : (t.group g).shown = (s.group g).shown := by
  obtain ⟨_, _, _, _, _, _, _, _, _, _, _, _, _, _, _, rfl⟩ := h.elim; cases g <;> rfl
theorem CuesOnly.holder (g : GroupId) : (t.group g).holder = (s.group g).holder := by
  obtain ⟨_, _, _, _, _, _, _, _, _, _, _, _, _, _, _, rfl⟩ := h.elim; cases g <;> rfl

theorem CuesOnly.tracked (n : ChainNo) : (t.chain n).tracked = (s.chain n).tracked := h.1 n

theorem CuesOnly.state (n : ChainNo) : (t.chain n).state = (s.chain n).state := by
  have e := congrArg (fun r : ChainRecord => r.state) (h.tracked n)
  exact e

theorem CuesOnly.config (n : ChainNo) : (t.chain n).config = (s.chain n).config := by
  have e := congrArg (fun r : ChainRecord => r.config) (h.tracked n)
  exact e

theorem CuesOnly.reported (n : ChainNo) : (t.chain n).reported = (s.chain n).reported := by
  have e := congrArg (fun r : ChainRecord => r.reported) (h.tracked n)
  exact e

end

/-! ### TrackingOnly -/

/-- A state written as the frame allows meets the frame. -/
theorem TrackingOnly.of {s t : State} (x : List ActionSet) (y : List Placed) (n : List Notice) (v : Vector ChainRecord 8)
    (l p : List Cue) (w : Bool) (f : Vector (Option Field) 8) (ha : Option ChainNo) (ca : AirCauses) (fa : Option InFlight)
    (hb : Option ChainNo) (cb : AirCauses) (fb : Option InFlight) (q : Vector (Option PendingRecord) 42) (i : List Entry)
    (a : Bool) (st : List Snapshot) (af : Bool)
    (h : t = { s with
      round := { s.round with sets := x, placed := y, notices := n }, chains := v,
      cues := { s.cues with live := l, preset := p, swapPending := w, updateField := f },
      groupA := { s.groupA with holder := ha, causes := ca, inFlight := fa },
      groupB := { s.groupB with holder := hb, causes := cb, inFlight := fb },
      alarms := { s.alarms with pending := q, inService := i, alm := a },
      snaps := { s.snaps with store := st, almostFull := af } }) : TrackingOnly s t := by
  subst h; rfl

/-- What meets the frame is written as the frame allows. -/
theorem TrackingOnly.elim {s t : State} (h : TrackingOnly s t) :
    ∃ x y n v l p w f ha ca fa hb cb fb q i a st af, t = { s with
      round := { s.round with sets := x, placed := y, notices := n }, chains := v,
      cues := { s.cues with live := l, preset := p, swapPending := w, updateField := f },
      groupA := { s.groupA with holder := ha, causes := ca, inFlight := fa },
      groupB := { s.groupB with holder := hb, causes := cb, inFlight := fb },
      alarms := { s.alarms with pending := q, inService := i, alm := a },
      snaps := { s.snaps with store := st, almostFull := af } } :=
  ⟨_, _, _, _, _, _, _, _, _, _, _, _, _, _, _, _, _, _, _, h⟩

theorem TrackingOnly.refl (s : State) : TrackingOnly s s := rfl

theorem TrackingOnly.trans {s t u : State} (h : TrackingOnly s t) (k : TrackingOnly t u) : TrackingOnly s u := by
  obtain ⟨_, _, _, _, _, _, _, _, _, _, _, _, _, _, _, _, _, _, _, rfl⟩ := h.elim
  obtain ⟨x, y, n, v, l, p, w, f, ha, ca, fa, hb, cb, fb, q, i, a, st, af, rfl⟩ := k.elim
  exact .of x y n v l p w f ha ca fa hb cb fb q i a st af rfl

theorem CuesOnly.trackingOnly {s t : State} (h : CuesOnly s t) : TrackingOnly s t := by
  obtain ⟨_, _, _, _, _, _, _, _, _, _, _, _, _, _, _, rfl⟩ := h.elim
  rfl

theorem AlarmsOnly.trackingOnly {s t : State} (h : AlarmsOnly s t) : TrackingOnly s t := h.cuesOnly.trackingOnly

section
variable {s t : State} (h : TrackingOnly s t)
include h

theorem TrackingOnly.port : t.port = s.port := by
  obtain ⟨_, _, _, _, _, _, _, _, _, _, _, _, _, _, _, _, _, _, _, rfl⟩ := h.elim; rfl
theorem TrackingOnly.phase : t.round.phase = s.round.phase := by
  obtain ⟨_, _, _, _, _, _, _, _, _, _, _, _, _, _, _, _, _, _, _, rfl⟩ := h.elim; rfl
theorem TrackingOnly.replies : t.round.replies = s.round.replies := by
  obtain ⟨_, _, _, _, _, _, _, _, _, _, _, _, _, _, _, _, _, _, _, rfl⟩ := h.elim; rfl
theorem TrackingOnly.fieldCount : t.fieldCount = s.fieldCount := by
  obtain ⟨_, _, _, _, _, _, _, _, _, _, _, _, _, _, _, _, _, _, _, rfl⟩ := h.elim; rfl
theorem TrackingOnly.shown (g : GroupId) : (t.group g).shown = (s.group g).shown := by
  obtain ⟨_, _, _, _, _, _, _, _, _, _, _, _, _, _, _, _, _, _, _, rfl⟩ := h.elim; cases g <;> rfl

end

/-- An update of chain records alone stays in the frame. -/
theorem TrackingOnly.setChain (s : State) (n : ChainNo) (r : ChainRecord) : TrackingOnly s (s.setChain n r) := rfl

end Sys2Proof.Machine
end

