-- ==== Sys2Proof/Laws/Alarms.lean ====
section
/-! SUPPORT. What selection, raising, withdrawing and a snapshot request can do. -/

namespace Sys2Proof.Machine

/-! ### The frame of each -/

theorem queueNotice_alarmsOnly (s : State) (n : Notice) : AlarmsOnly s (s.queueNotice n) := rfl

theorem enterService_alarmsOnly (s : State) (src : Source) (p : PendingRecord) : AlarmsOnly s (s.enterService src p) := rfl

theorem select_alarmsOnly (s : State) : AlarmsOnly s s.select := by
  unfold State.select
  split
  · exact .refl s
  · split
    · exact .refl s
    · split
      · exact enterService_alarmsOnly ..
      · exact .refl s

theorem judgeAlm_alarmsOnly (s : State) : AlarmsOnly s s.judgeAlm := rfl

theorem selectAndJudge_alarmsOnly (s : State) : AlarmsOnly s s.selectAndJudge :=
  (select_alarmsOnly s).trans (judgeAlm_alarmsOnly _)

theorem setPending_alarmsOnly (s : State) (v : Vector (Option PendingRecord) 42) :
    AlarmsOnly s (s.setAlarms { s.alarms with pending := v }) := rfl

theorem storeSnapshot_alarmsOnly (s : State) (k : TriggerKind) (tag : Option (BitVec 16)) :
    AlarmsOnly s (s.storeSnapshot k tag) := by
  unfold State.storeSnapshot
  split
  · rfl
  · exact .refl s

theorem raiseOnce_alarmsOnly (s : State) (src : Source) (d : Detail) : AlarmsOnly s (s.raiseOnce src d) := by
  unfold State.raiseOnce
  split
  · exact (setPending_alarmsOnly s _).trans (selectAndJudge_alarmsOnly _)
  · dsimp only
    split
    · exact ((setPending_alarmsOnly s _).trans (storeSnapshot_alarmsOnly ..)).trans (selectAndJudge_alarmsOnly _)
    · exact (setPending_alarmsOnly s _).trans (selectAndJudge_alarmsOnly _)

theorem raise_alarmsOnly (s : State) (src : Source) (d : Detail) : AlarmsOnly s (s.raise src d) := by
  unfold State.raise
  dsimp only
  split
  · exact (raiseOnce_alarmsOnly ..).trans (raiseOnce_alarmsOnly ..)
  · exact raiseOnce_alarmsOnly ..

theorem withdraw_alarmsOnly (s : State) (src : Source) : AlarmsOnly s (s.withdraw src) := by
  unfold State.withdraw
  split
  · exact (setPending_alarmsOnly s _).trans (selectAndJudge_alarmsOnly _)
  · exact .refl s

theorem judgeAlmostFull_alarmsOnly (s : State) : AlarmsOnly s s.judgeAlmostFull := by
  have h (x : Bool) : AlarmsOnly s (s.setSnaps { s.snaps with almostFull := x }) := rfl
  unfold State.judgeAlmostFull
  dsimp only
  split
  · exact (h _).trans (raise_alarmsOnly ..)
  · split
    · exact (h _).trans (withdraw_alarmsOnly ..)
    · exact h _

theorem requestSnapshot_alarmsOnly (s : State) (k : TriggerKind) (tag : Option (BitVec 16)) :
    AlarmsOnly s (s.requestSnapshot k tag) := by
  unfold State.requestSnapshot
  dsimp only
  split
  · exact (storeSnapshot_alarmsOnly ..).trans (raise_alarmsOnly ..)
  · split
    · exact (storeSnapshot_alarmsOnly ..).trans (withdraw_alarmsOnly ..)
    · exact storeSnapshot_alarmsOnly ..

theorem acknowledgeTop_alarmsOnly (s : State) : AlarmsOnly s s.acknowledgeTop :=
  AlarmsOnly.trans (t := s.setAlarms { s.alarms with inService := s.alarms.inService.drop 1 }) rfl
    (selectAndJudge_alarmsOnly _)

/-! ### Selection -/

/-- Selection does nothing, or the most urgent candidate enters on top of the list above a less urgent one (R163, R164). -/
theorem select_spec (s : State) :
    s.select = s ∨ ∃ src p, s.alarms.mostUrgent = some src ∧ s.alarms.pending[src] = some p
      ∧ s.alarms.mayEnter (s.alarms.level src) = true ∧ s.select = s.enterService src p := by
  unfold State.select
  split
  · exact .inl rfl
  · rename_i src h
    split
    · exact .inl rfl
    · rename_i p hp
      split
      · rename_i hm; exact .inr ⟨src, p, h, hp, hm, rfl⟩
      · exact .inl rfl

/-- An entry into service keeps the list strictly nested (R165). -/
theorem nested_cons {e : Entry} {l : List Entry} (h : strictlyNested l = true)
    (ht : ∀ top ∈ l.head?, e.level < top.level) : strictlyNested (e :: l) = true := by
  cases l with
  | nil => rfl
  | cons x rest =>
    have hx : e.level < x.level := ht x rfl
    simp only [strictlyNested, Bool.and_eq_true, List.all_eq_true, decide_eq_true_eq, List.mem_cons] at h ⊢
    refine ⟨fun y hy => ?_, h⟩
    rcases hy with rfl | hy
    · exact hx
    · exact lt_trans hx (h.1 y hy)

theorem select_nested (s : State) (h : strictlyNested s.alarms.inService = true) :
    strictlyNested s.select.alarms.inService = true := by
  rcases select_spec s with e | ⟨src, p, _, _, hm, e⟩ <;> rw [e]
  · exact h
  · refine nested_cons h fun top ht => ?_
    unfold AlarmUnit.mayEnter at hm
    cases hl : s.alarms.inService with
    | nil => simp [hl] at ht
    | cons x rest =>
      simp only [hl, List.head?_cons, Option.mem_some_iff] at ht
      subst ht
      simpa [hl] using hm

/-- After selection and the judging of the line the unit is sound, when the list was nested (R165, R168). -/
theorem selectAndJudge_sound (s : State) (h : strictlyNested s.alarms.inService = true) :
    s.selectAndJudge.alarms.sound = true := by
  have hn := select_nested s h
  have e : s.selectAndJudge.alarms.almWanted = s.select.alarms.almWanted := rfl
  have e2 : s.selectAndJudge.alarms.alm = s.select.alarms.almWanted := rfl
  have e3 : s.selectAndJudge.alarms.inService = s.select.alarms.inService := rfl
  simp [AlarmUnit.sound, e, e2, e3, hn]

/-- Selection and judgment leave the store and the almost-full flag as they are. -/
theorem selectAndJudge_snaps (s : State) : s.selectAndJudge.snaps = s.snaps := by
  have : s.select.snaps = s.snaps := by
    rcases select_spec s with e | ⟨_, _, _, _, _, e⟩ <;> rw [e] <;> rfl
  simpa [State.selectAndJudge] using this

theorem raiseOnce_sound (s : State) (src : Source) (d : Detail) (h : s.alarms.sound = true) :
    (s.raiseOnce src d).alarms.sound = true := by
  have hn : strictlyNested s.alarms.inService = true := by
    simp only [AlarmUnit.sound, Bool.and_eq_true] at h; exact h.1
  unfold State.raiseOnce
  split
  · exact selectAndJudge_sound _ hn
  · dsimp only
    refine selectAndJudge_sound _ ?_
    split
    · unfold State.storeSnapshot; split <;> exact hn
    · exact hn

theorem raise_sound (s : State) (src : Source) (d : Detail) (h : s.alarms.sound = true) :
    (s.raise src d).alarms.sound = true := by
  unfold State.raise
  dsimp only
  split
  · exact raiseOnce_sound _ _ _ (raiseOnce_sound _ _ _ h)
  · exact raiseOnce_sound _ _ _ h

theorem withdraw_sound (s : State) (src : Source) (h : s.alarms.sound = true) : (s.withdraw src).alarms.sound = true := by
  unfold State.withdraw
  split
  · refine selectAndJudge_sound _ ?_
    simp only [AlarmUnit.sound, Bool.and_eq_true] at h; exact h.1
  · exact h

theorem requestSnapshot_sound (s : State) (k : TriggerKind) (tag : Option (BitVec 16)) (h : s.alarms.sound = true) :
    (s.requestSnapshot k tag).alarms.sound = true := by
  have hs : (s.storeSnapshot k tag).alarms = s.alarms := by unfold State.storeSnapshot; split <;> rfl
  unfold State.requestSnapshot
  dsimp only
  split
  · exact raise_sound _ _ _ (hs ▸ h)
  · split
    · exact withdraw_sound _ _ (hs ▸ h)
    · exact hs ▸ h

theorem judgeAlmostFull_sound (s : State) (h : s.alarms.sound = true) : s.judgeAlmostFull.alarms.sound = true := by
  unfold State.judgeAlmostFull
  dsimp only
  split
  · exact raise_sound _ _ _ h
  · split
    · exact withdraw_sound _ _ h
    · exact h

/-! ### What stands, and what is not pending -/

/-- Selection and judgment keep every source that stands: it is pending still or has entered service (R164). -/
theorem selectAndJudge_stands (s : State) (src : Source) (h : s.alarmStands src = true) :
    s.selectAndJudge.alarmStands src = true := by
  have : s.select.alarmStands src = true := by
    rcases select_spec s with e | ⟨x, p, _, hp, _, e⟩ <;> rw [e]
    · exact h
    · by_cases hx : x = src
      · subst hx
        simp [State.alarmStands, State.enterService, State.queueNotice, State.setAlarms, AlarmUnit.isInService]
      · have hv : (x : Nat) ≠ src := fun e => hx (Fin.ext e)
        simp only [State.alarmStands, AlarmUnit.isPending, AlarmUnit.isInService, Bool.or_eq_true] at h ⊢
        rcases h with h | h
        · left; simpa [State.enterService, State.queueNotice, State.setAlarms, hv] using h
        · right; simp [State.enterService, State.queueNotice, State.setAlarms, h]
  exact this

/-- Selection and judgment make nothing pending. -/
theorem selectAndJudge_notPending (s : State) (src : Source) (h : s.alarms.isPending src = false) :
    s.selectAndJudge.alarms.isPending src = false := by
  have : s.select.alarms.isPending src = false := by
    rcases select_spec s with e | ⟨x, p, _, hp, _, e⟩ <;> rw [e]
    · exact h
    · by_cases hx : (x : Nat) = src
      · simp [State.enterService, State.queueNotice, State.setAlarms, AlarmUnit.isPending, hx]
      · simpa [State.enterService, State.queueNotice, State.setAlarms, AlarmUnit.isPending, hx] using h
  exact this

theorem raiseOnce_keeps_standing (s : State) (src x : Source) (d : Detail) (h : s.alarmStands x = true) :
    (s.raiseOnce src d).alarmStands x = true := by
  have set_stands (u : State) (v : PendingRecord) (hu : u.alarmStands x = true) :
      (u.setAlarms { u.alarms with pending := u.alarms.pending.set src (some v) }).alarmStands x = true := by
    simp only [State.alarmStands, AlarmUnit.isPending, AlarmUnit.isInService, Bool.or_eq_true] at hu ⊢
    by_cases hx : (src : Nat) = x
    · left; simp [hx]
    · rcases hu with hu | hu
      · left; simpa [hx] using hu
      · right; simpa using hu
  have store_stands (u : State) (k : TriggerKind) (tag : Option (BitVec 16)) (hu : u.alarmStands x = true) :
      (u.storeSnapshot k tag).alarmStands x = true := by
    unfold State.storeSnapshot; split <;> exact hu
  unfold State.raiseOnce
  split
  · exact selectAndJudge_stands _ _ (set_stands s _ h)
  · dsimp only
    refine selectAndJudge_stands _ _ ?_
    split
    · exact store_stands _ _ _ (set_stands s _ h)
    · exact set_stands s _ h

theorem raiseOnce_stands (s : State) (src : Source) (d : Detail) : (s.raiseOnce src d).alarmStands src = true := by
  have set_stands (u : State) (v : PendingRecord) :
      (u.setAlarms { u.alarms with pending := u.alarms.pending.set src (some v) }).alarmStands src = true := by
    simp [State.alarmStands, AlarmUnit.isPending]
  unfold State.raiseOnce
  split
  · exact selectAndJudge_stands _ _ (set_stands s _)
  · dsimp only
    refine selectAndJudge_stands _ _ ?_
    split
    · have := set_stands s { detail := d }
      unfold State.storeSnapshot; split <;> exact this
    · exact set_stands s _

/-- A source that is raised stands (R160, R164). -/
theorem raise_stands (s : State) (src : Source) (d : Detail) : (s.raise src d).alarmStands src = true := by
  unfold State.raise
  dsimp only
  split
  · exact raiseOnce_keeps_standing _ _ _ _ (raiseOnce_stands ..)
  · exact raiseOnce_stands ..

/-- A raising keeps every other source standing that stood. -/
theorem raise_keeps_standing (s : State) (src x : Source) (d : Detail) (h : s.alarmStands x = true) :
    (s.raise src d).alarmStands x = true := by
  unfold State.raise
  dsimp only
  split
  · exact raiseOnce_keeps_standing _ _ _ _ (raiseOnce_keeps_standing _ _ _ _ h)
  · exact raiseOnce_keeps_standing _ _ _ _ h

/-- A source that is withdrawn is not pending (R161). -/
theorem withdraw_notPending (s : State) (src : Source) : (s.withdraw src).alarms.isPending src = false := by
  unfold State.withdraw
  split
  · exact selectAndJudge_notPending _ _ (by simp [AlarmUnit.isPending])
  · rename_i h; simpa using h

theorem raiseOnce_notPending (s : State) (src x : Source) (d : Detail) (hne : src ≠ x)
    (h : s.alarms.isPending x = false) : (s.raiseOnce src d).alarms.isPending x = false := by
  have hv : (src : Nat) ≠ x := fun e => hne (Fin.ext e)
  have set_np (u : State) (v : PendingRecord) (hu : u.alarms.isPending x = false) :
      (u.setAlarms { u.alarms with pending := u.alarms.pending.set src (some v) }).alarms.isPending x = false := by
    simpa [AlarmUnit.isPending, hv] using hu
  unfold State.raiseOnce
  split
  · exact selectAndJudge_notPending _ _ (set_np s _ h)
  · dsimp only
    refine selectAndJudge_notPending _ _ ?_
    split
    · have := set_np s { detail := d } h
      unfold State.storeSnapshot; split <;> exact this
    · exact set_np s _ h

/-- A raising makes no source pending but its own and SNAPSHOT ALMOST FULL (R160, R182). -/
theorem raise_notPending (s : State) (src x : Source) (d : Detail) (hne : src ≠ x) (hfull : srcAlmostFull ≠ x)
    (h : s.alarms.isPending x = false) : (s.raise src d).alarms.isPending x = false := by
  unfold State.raise
  dsimp only
  split
  · exact raiseOnce_notPending _ _ _ _ hfull (raiseOnce_notPending _ _ _ _ hne h)
  · exact raiseOnce_notPending _ _ _ _ hne h

/-! ### The snapshot store -/

/-- A snapshot is stored whole at the tail, or nothing changes (R176). -/
theorem storeSnapshot_spec (s : State) (k : TriggerKind) (tag : Option (BitVec 16)) :
    (s.snapshotFits = true ∧ (s.storeSnapshot k tag).snaps.store = s.snaps.store ++ [s.newSnapshot k tag]
        ∧ (s.storeSnapshot k tag).alarms = s.alarms ∧ (s.storeSnapshot k tag).round = s.round)
      ∨ (s.snapshotFits = false ∧ s.storeSnapshot k tag = s) := by
  unfold State.storeSnapshot
  cases h : s.snapshotFits
  · exact .inr ⟨rfl, by simp⟩
  · exact .inl ⟨rfl, by simp [State.setSnaps]⟩

theorem storeSnapshot_within (s : State) (k : TriggerKind) (tag : Option (BitVec 16)) (h : s.snaps.withinSize = true) :
    (s.storeSnapshot k tag).snaps.withinSize = true := by
  rcases storeSnapshot_spec s k tag with ⟨hf, hs, _, _⟩ | ⟨_, hs⟩
  · have hf := of_decide_eq_true hf
    have h := of_decide_eq_true h
    simp only [cellsHeld] at hf
    simp only [SnapshotBuffer.withinSize, cellsHeld, hs, List.map_append, List.map_cons, List.map_nil, List.sum_append,
      List.sum_cons, List.sum_nil, Snapshot.size, State.newSnapshot, List.length_map, decide_eq_true_eq]
    omega
  · rw [hs]; exact h

theorem storeSnapshot_prefix (s : State) (k : TriggerKind) (tag : Option (BitVec 16)) :
    s.snaps.store <+: (s.storeSnapshot k tag).snaps.store := by
  rcases storeSnapshot_spec s k tag with ⟨_, hs, _, _⟩ | ⟨_, hs⟩ <;> rw [hs]
  exact List.prefix_append ..

theorem raiseOnce_within (s : State) (src : Source) (d : Detail) (h : s.snaps.withinSize = true) :
    (s.raiseOnce src d).snaps.withinSize = true := by
  unfold State.raiseOnce
  split
  · rw [selectAndJudge_snaps]; exact h
  · dsimp only
    rw [selectAndJudge_snaps]
    split
    · exact storeSnapshot_within _ _ _ h
    · exact h

theorem raiseOnce_prefix (s : State) (src : Source) (d : Detail) :
    s.snaps.store <+: (s.raiseOnce src d).snaps.store := by
  unfold State.raiseOnce
  split
  · rw [selectAndJudge_snaps]; exact List.prefix_rfl
  · dsimp only
    rw [selectAndJudge_snaps]
    split
    · exact storeSnapshot_prefix
        (s.setAlarms { s.alarms with pending := s.alarms.pending.set src (some { detail := d }) }) _ _
    · exact List.prefix_rfl

/-- A raising keeps the store within its size (R174, R176). -/
theorem raise_within (s : State) (src : Source) (d : Detail) (h : s.snaps.withinSize = true) :
    (s.raise src d).snaps.withinSize = true := by
  unfold State.raise
  dsimp only
  split
  · exact raiseOnce_within _ _ _ (raiseOnce_within _ _ _ h)
  · exact raiseOnce_within _ _ _ h

/-- A raising adds to the store at its tail alone (R160, R176). -/
theorem raise_prefix (s : State) (src : Source) (d : Detail) : s.snaps.store <+: (s.raise src d).snaps.store := by
  unfold State.raise
  dsimp only
  split
  · exact (raiseOnce_prefix ..).trans (raiseOnce_prefix ..)
  · exact raiseOnce_prefix ..

/-- A withdrawal leaves the snapshot buffer alone. -/
theorem withdraw_snaps (s : State) (src : Source) : (s.withdraw src).snaps = s.snaps := by
  unfold State.withdraw
  split
  · rw [selectAndJudge_snaps]; rfl
  · rfl

/-- A snapshot request keeps the store within its size (R174). -/
theorem requestSnapshot_within (s : State) (k : TriggerKind) (tag : Option (BitVec 16)) (h : s.snaps.withinSize = true) :
    (s.requestSnapshot k tag).snaps.withinSize = true := by
  have hs := storeSnapshot_within s k tag h
  unfold State.requestSnapshot
  dsimp only
  split
  · exact raise_within _ _ _ hs
  · split
    · rw [withdraw_snaps]; exact hs
    · exact hs

/-- A snapshot request adds to what the snapshot itself leaves. -/
theorem requestSnapshot_prefix (s : State) (k : TriggerKind) (tag : Option (BitVec 16)) :
    (s.storeSnapshot k tag).snaps.store <+: (s.requestSnapshot k tag).snaps.store := by
  unfold State.requestSnapshot
  dsimp only
  split
  · exact raise_prefix ..
  · split
    · rw [withdraw_snaps]
    · exact List.prefix_rfl

/-! ### The notices of class 4 -/

/-- At most sixteen notices wait (R12). -/
theorem queueNotice_bound (s : State) (n : Notice) (h : s.round.notices.length ≤ 16) :
    (s.queueNotice n).round.notices.length ≤ 16 := by
  simp only [State.queueNotice]
  split <;> simp only [List.length_append, List.length_drop, List.length_cons, List.length_nil] <;> omega

theorem selectAndJudge_bound (s : State) (h : s.round.notices.length ≤ 16) :
    s.selectAndJudge.round.notices.length ≤ 16 := by
  have : s.select.round.notices.length ≤ 16 := by
    rcases select_spec s with e | ⟨_, _, _, _, _, e⟩ <;> rw [e]
    · exact h
    · exact queueNotice_bound _ _ h
  exact this

theorem raiseOnce_bound (s : State) (src : Source) (d : Detail) (h : s.round.notices.length ≤ 16) :
    (s.raiseOnce src d).round.notices.length ≤ 16 := by
  unfold State.raiseOnce
  split
  · exact selectAndJudge_bound _ h
  · dsimp only
    refine selectAndJudge_bound _ ?_
    split
    · unfold State.storeSnapshot; split <;> exact h
    · exact h

/-- A raising keeps class 4 at sixteen or fewer (R12). -/
theorem raise_bound (s : State) (src : Source) (d : Detail) (h : s.round.notices.length ≤ 16) :
    (s.raise src d).round.notices.length ≤ 16 := by
  unfold State.raise
  dsimp only
  split
  · exact raiseOnce_bound _ _ _ (raiseOnce_bound _ _ _ h)
  · exact raiseOnce_bound _ _ _ h

theorem withdraw_bound (s : State) (src : Source) (h : s.round.notices.length ≤ 16) :
    (s.withdraw src).round.notices.length ≤ 16 := by
  unfold State.withdraw
  split
  · exact selectAndJudge_bound _ h
  · exact h

end Sys2Proof.Machine
end

