-- ==== Sys2Proof/Laws/Cues.lean ====
section
/-! SUPPORT. What the handling of an event by the cue engine can write: the frame of every task, and so of every event. -/

namespace Sys2Proof.Machine

/-! ### The small writes -/

theorem setRuntime_cuesOnly (s : State) (id : CueId) (r : CueRuntime) : CuesOnly s (s.setRuntime id r) := ⟨fun _ => rfl, rfl⟩

theorem withdrawSet_cuesOnly (s : State) (id : CueId) : CuesOnly s (s.withdrawSet id) := ⟨fun _ => rfl, rfl⟩

theorem queueSet_cuesOnly (s : State) (x : ActionSet) : CuesOnly s (s.queueSet x) := ⟨fun _ => rfl, rfl⟩

theorem joinSet_cuesOnly (s : State) (id : CueId) (l : List Telegram) : CuesOnly s (s.joinSet id l) := ⟨fun _ => rfl, rfl⟩

/-- A write of a commanded part leaves the tracked part of every record (R42). -/
theorem setCommanded_tracked (s : State) (n m : ChainNo) (c : Commanded) :
    ((s.setCommanded n c).chain m).tracked = (s.chain m).tracked := by
  by_cases h : m = n
  · subst h; simp [State.setCommanded, ChainRecord.tracked]
  · simp [State.setCommanded, State.chain_setChain_ne s n m _ h]

theorem setCommanded_cuesOnly (s : State) (n : ChainNo) (c : Commanded) : CuesOnly s (s.setCommanded n c) :=
  ⟨fun m => setCommanded_tracked s n m c, rfl⟩

theorem endFlight_cuesOnly (s : State) (c : Cue) : CuesOnly s (s.endFlight c) := by
  have h (r : GroupRecord) (id : CueId) : r.endFlight id = { r with inFlight := (r.endFlight id).inFlight } := by
    unfold GroupRecord.endFlight
    split
    · split <;> rfl
    · rfl
  unfold State.endFlight
  split
  · refine ⟨fun _ => rfl, ?_⟩
    rw [h s.groupA, h s.groupB]
  · exact .refl s

theorem takeSwap_cuesOnly (s : State) : CuesOnly s s.takeSwap := ⟨fun _ => rfl, rfl⟩

theorem setInFlight_cuesOnly (s : State) (g : GroupId) (x : Option InFlight) :
    CuesOnly s (s.setGroup g { s.group g with inFlight := x }) := by
  cases g <;> exact ⟨fun _ => rfl, rfl⟩

theorem commandChangeover_cuesOnly (s : State) (f : CueFields) : CuesOnly s (s.commandChangeover f) := by
  unfold State.commandChangeover
  split
  · exact .refl s
  · dsimp only
    split
    · exact ((setCommanded_cuesOnly s _ _).trans (setCommanded_cuesOnly _ _ _)).trans (setInFlight_cuesOnly _ _ _)
    · exact (setCommanded_cuesOnly s _ _).trans (setInFlight_cuesOnly _ _ _)

theorem commandFor_cuesOnly (s : State) (f : CueFields) (lamp : Bool) : CuesOnly s (s.commandFor f lamp) := by
  unfold State.commandFor
  dsimp only
  split
  · exact setCommanded_cuesOnly ..
  · exact setCommanded_cuesOnly ..
  · exact setCommanded_cuesOnly ..
  · exact setCommanded_cuesOnly ..
  · exact commandChangeover_cuesOnly ..
  · exact .refl s

theorem queueActions_cuesOnly (s : State) (c : Cue) : CuesOnly s (s.queueActions c) := by
  unfold State.queueActions
  split
  · exact joinSet_cuesOnly ..
  · exact queueSet_cuesOnly ..

theorem lampUp_cuesOnly (s : State) (c : Cue) : CuesOnly s (s.lampUp c) := by
  unfold State.lampUp
  exact ((setRuntime_cuesOnly s _ _).trans (queueSet_cuesOnly _ _)).trans (setCommanded_cuesOnly _ _ _)

theorem raise_cuesOnly (s : State) (src : Source) (d : Detail) : CuesOnly s (s.raise src d) :=
  (raise_alarmsOnly s src d).cuesOnly

theorem requestSnapshot_cuesOnly (s : State) (k : TriggerKind) (tag : Option (BitVec 16)) :
    CuesOnly s (s.requestSnapshot k tag) :=
  (requestSnapshot_alarmsOnly s k tag).cuesOnly

theorem raiseLate_cuesOnly (s : State) (c : Cue) : CuesOnly s (s.raiseLate c) := by
  unfold State.raiseLate
  split
  · exact .refl s
  · exact raise_cuesOnly ..

theorem snapshotIf_cuesOnly (s : State) (b : Bool) (k : TriggerKind) (tag : Option (BitVec 16)) :
    CuesOnly s (if b then s.requestSnapshot k tag else s) := by
  split
  · exact requestSnapshot_cuesOnly ..
  · exact .refl s

theorem lateIf_cuesOnly (s : State) (b : Bool) (c : Cue) : CuesOnly s (if b then s.raiseLate c else s) := by
  split
  · exact raiseLate_cuesOnly ..
  · exact .refl s

theorem lateAndSnapshot_cuesOnly (s : State) (c : Cue) (r : CueRuntime) : CuesOnly s (s.lateAndSnapshot c r) := by
  unfold State.lateAndSnapshot
  exact (lateIf_cuesOnly s r.late c).trans (snapshotIf_cuesOnly _ _ _ _)

/-! ### One state change -/

theorem settleChange_cuesOnly (s : State) (c : Cue) (r : CueRuntime) : CuesOnly s (s.settleChange c r).state := by
  have h1 (b : Bool) : CuesOnly s (if b then s.withdrawSet c.fields.id else s) := by
    split
    · exact withdrawSet_cuesOnly ..
    · exact .refl s
  have h2 (u : State) (b : Bool) (x y : List Task) :
      CuesOnly u (if b then ({ state := u.takeSwap, tasks := x, swapped := true } : Effect)
        else { state := u, tasks := y }).state := by
    split
    · exact takeSwap_cuesOnly u
    · exact .refl u
  unfold State.settleChange
  exact (h1 _).trans (h2 _ _ _ _)

theorem changed_cuesOnly (s : State) (c : Cue) (id : CueId) (r : CueRuntime) :
    CuesOnly s ((s.setRuntime id r).endFlight c) :=
  (setRuntime_cuesOnly s id r).trans (endFlight_cuesOnly _ c)

theorem failCue_cuesOnly (s : State) (c : Cue) (r : CueRuntime) (cause : FailureCause) :
    CuesOnly s (s.failCue c r cause).state := by
  unfold State.failCue
  exact ((changed_cuesOnly ..).trans (raise_cuesOnly ..)).trans (settleChange_cuesOnly ..)

theorem abandonCue_cuesOnly (s : State) (c : Cue) : CuesOnly s (s.abandonCue c).state := by
  unfold State.abandonCue
  exact (changed_cuesOnly ..).trans (settleChange_cuesOnly ..)

theorem confirmCue_cuesOnly (s : State) (c : Cue) : CuesOnly s (s.confirmCue c).state := by
  unfold State.confirmCue
  exact (changed_cuesOnly ..).trans (settleChange_cuesOnly ..)

theorem withholdCue_cuesOnly (s : State) (c : Cue) (reason : WithholdReason) :
    CuesOnly s (s.withholdCue c reason).state := by
  unfold State.withholdCue
  split
  · exact setRuntime_cuesOnly ..
  · exact ((setRuntime_cuesOnly ..).trans (raise_cuesOnly ..)).trans (settleChange_cuesOnly ..)

theorem doneAtOnce_cuesOnly (s : State) (c : Cue) (b : Bool) : CuesOnly s (s.doneAtOnce c b).state := by
  unfold State.doneAtOnce
  exact ((setRuntime_cuesOnly ..).trans (lateAndSnapshot_cuesOnly ..)).trans (settleChange_cuesOnly ..)

theorem fireCue_cuesOnly (s : State) (c : Cue) : CuesOnly s (s.fireCue c).state := by
  unfold State.fireCue
  exact (((((setRuntime_cuesOnly ..).trans (lateIf_cuesOnly _ _ _)).trans (queueActions_cuesOnly ..)).trans
    (commandFor_cuesOnly ..)).trans (snapshotIf_cuesOnly _ _ _ _)).trans (settleChange_cuesOnly ..)

theorem decideCue_cuesOnly (s : State) (c : Cue) : CuesOnly s (s.decideCue c).state := by
  unfold State.decideCue
  split
  · exact withholdCue_cuesOnly ..
  · exact doneAtOnce_cuesOnly ..
  · split
    · exact doneAtOnce_cuesOnly ..
    · split
      · exact doneAtOnce_cuesOnly ..
      · exact fireCue_cuesOnly ..

theorem dueCue_cuesOnly (s : State) (c : Cue) (due : Field) : CuesOnly s (s.dueCue c due).state := by
  unfold State.dueCue
  exact (setRuntime_cuesOnly ..).trans (decideCue_cuesOnly ..)

theorem evaluateCue_cuesOnly (s : State) (c : Cue) : CuesOnly s (s.evaluateCue c).state := by
  unfold State.evaluateCue
  dsimp only
  split
  · exact .refl s
  · split
    · split
      · split
        · exact failCue_cuesOnly ..
        · exact dueCue_cuesOnly ..
      · split
        · exact lampUp_cuesOnly ..
        · exact .refl s
    · exact .refl s

theorem afterArming_cuesOnly (s : State) (c : Cue) : CuesOnly s (s.afterArming c).state := by
  unfold State.afterArming
  split
  · exact dueCue_cuesOnly ..
  · exact .refl s
  · exact evaluateCue_cuesOnly ..
  · exact evaluateCue_cuesOnly ..
  · exact .refl s
  · exact .refl s

theorem computeEligible_cuesOnly (s : State) (n : ChainNo) : CuesOnly s (s.computeEligible n).state := by
  unfold State.computeEligible
  split
  · exact .refl s
  · split
    · exact (setRuntime_cuesOnly ..).trans (afterArming_cuesOnly ..)
    · exact .refl s

theorem actOnTake_cuesOnly (s : State) (c : Cue) : CuesOnly s (s.actOnTake c).state := by
  unfold State.actOnTake
  split
  · split
    · exact dueCue_cuesOnly ..
    · exact evaluateCue_cuesOnly ..
  · exact decideCue_cuesOnly ..
  all_goals exact .refl s

theorem recheckCue_cuesOnly (s : State) (c : Cue) : CuesOnly s (s.recheckCue c).state := by
  unfold State.recheckCue
  split
  · dsimp only
    split
    · exact failCue_cuesOnly ..
    · exact setRuntime_cuesOnly ..
  · exact decideCue_cuesOnly ..
  · exact decideCue_cuesOnly ..

theorem followCue_cuesOnly (s : State) (c : Cue) (f : Field) : CuesOnly s (s.followCue c f).state := by
  unfold State.followCue
  split
  · exact .refl s
  · split
    · dsimp only
      split
      · exact failCue_cuesOnly ..
      · exact dueCue_cuesOnly ..
    · exact .refl s

theorem confirmIf_cuesOnly (s : State) (c : Cue) (b : Bool) : CuesOnly s (if b then s.confirmCue c else s.quiet).state := by
  split
  · exact confirmCue_cuesOnly ..
  · exact .refl s

theorem judgeByArrival_cuesOnly (s : State) (c : Cue) (f : Field) : CuesOnly s (s.judgeByArrival c f).state := by
  unfold State.judgeByArrival
  generalize (s.chain c.fields.chain).reported = v
  dsimp only
  split
  · split
    · split
      · exact .refl s
      · split
        · exact confirmCue_cuesOnly ..
        · exact failCue_cuesOnly ..
      all_goals exact failCue_cuesOnly ..
    · exact confirmIf_cuesOnly ..
    · exact confirmIf_cuesOnly ..
    all_goals exact .refl s
  · exact .refl s

theorem judgeByEntry_cuesOnly (s : State) (c : Cue) (x : ChainState) (a : Option Field) :
    CuesOnly s (s.judgeByEntry c x a).state := by
  have h : CuesOnly s (match a with
      | some f => if judges c.runtime.effectField f then s.failCue c c.runtime .contradicted else s.quiet
      | none => s.quiet).state := by
    split
    · split
      · exact failCue_cuesOnly ..
      · exact .refl s
    · exact .refl s
  unfold State.judgeByEntry
  split
  · exact confirmCue_cuesOnly ..
  all_goals first | exact h | exact .refl s

theorem countConfirm_cuesOnly (s : State) (c : Cue) (f : Field) : CuesOnly s (s.countConfirm c f).state := by
  unfold State.countConfirm
  split
  · split
    · generalize hr : ({ c.runtime with confirmCount := min 30000 (c.runtime.confirmCount + 1) } : CueRuntime) = r
      dsimp only
      split
      · exact failCue_cuesOnly ..
      · exact setRuntime_cuesOnly ..
    · exact .refl s
  · split
    · exact failCue_cuesOnly ..
    · exact .refl s

/-! ### Tasks and events -/

theorem onCue_cuesOnly (s : State) (id : CueId) (l : List CueState) (act : Cue → Effect)
    (h : ∀ c, CuesOnly s (act c).state) : CuesOnly s (s.onCue id l act).state := by
  unfold State.onCue
  split
  · exact .refl s
  · split
    · exact h _
    · exact .refl s

/-- Every task stays in the frame of the cue engine. -/
theorem runTask_cuesOnly (s : State) (t : Task) : CuesOnly s (s.runTask t).state := by
  cases t <;> unfold State.runTask
  case eligible n => exact computeEligible_cuesOnly s n
  all_goals refine onCue_cuesOnly _ _ _ _ fun c => ?_
  case abandonFollower => exact abandonCue_cuesOnly ..
  case abandonStopped => exact abandonCue_cuesOnly ..
  case abandonNamed => exact abandonCue_cuesOnly ..
  case evaluate =>
    split
    · exact evaluateCue_cuesOnly ..
    · exact .refl s
  case taken => exact actOnTake_cuesOnly ..
  case recheck => exact recheckCue_cuesOnly ..
  case follow =>
    split
    · exact followCue_cuesOnly ..
    · exact .refl s
  case fail => exact failCue_cuesOnly ..
  case confirm => exact confirmCue_cuesOnly ..
  case judgeArrival => exact judgeByArrival_cuesOnly ..
  case judgeEntry =>
    split
    · exact judgeByEntry_cuesOnly ..
    · exact .refl s
  case countConfirm => exact countConfirm_cuesOnly ..

/-- What every task keeps, all tasks keep: the induction over the carrying out, once. -/
theorem runTasks_induct (P : State → Prop) (step : ∀ s t, P s → P (s.runTask t).state) :
    ∀ (fuel : Nat) (s : State) (tasks : List Task), P s → P (runTasks fuel s tasks).1
  | 0, _, _, h => h
  | _ + 1, _, [], h => h
  | fuel + 1, s, t :: rest, h => by
    unfold runTasks
    exact runTasks_induct P step fuel _ _ (step s t h)

/-- Carrying tasks out keeps what every task keeps. -/
theorem carryOut_induct (P : State → Prop) (step : ∀ s t, P s → P (s.runTask t).state) (s : State) (tasks : List Task)
    (h : P s) : P (s.carryOut tasks) :=
  runTasks_induct P step _ s tasks h

/-- Carrying tasks out stays in the frame of the cue engine. -/
theorem carryOut_cuesOnly (s : State) (tasks : List Task) : CuesOnly s (s.carryOut tasks) :=
  carryOut_induct (CuesOnly s) (fun u t h => h.trans (runTask_cuesOnly u t)) s tasks (.refl s)

theorem failFired_cuesOnly (s : State) (n : ChainNo) (cause : FailureCause) : CuesOnly s (s.failFired n cause) :=
  carryOut_cuesOnly ..

theorem entryNotice_cuesOnly (s : State) (n : ChainNo) (x : ChainState) (a : Option Field) :
    CuesOnly s (s.entryNotice n x a) :=
  carryOut_cuesOnly ..

theorem deferCue_cuesOnly (s : State) (id : CueId) : CuesOnly s (s.deferCue id) := by
  unfold State.deferCue
  split
  · exact .refl s
  · exact (setRuntime_cuesOnly ..).trans (raiseLate_cuesOnly ..)

theorem undelivered_cuesOnly (s : State) (id : CueId) (d : Station) : CuesOnly s (s.undelivered id d) := by
  unfold State.undelivered
  exact (raise_cuesOnly ..).trans (carryOut_cuesOnly ..)

theorem giveTake_cuesOnly (s : State) : CuesOnly s s.giveTake := by
  unfold State.giveTake
  split
  · exact .refl s
  · exact (setRuntime_cuesOnly ..).trans (carryOut_cuesOnly ..)

/-- What the carrying out of any tasks keeps, the walk over the FOLLOW cues keeps. -/
theorem followWalk_induct (P : State → Prop) (f : Field) (step : ∀ s tasks, P s → P (s.carryOut tasks)) :
    ∀ (fuel : Nat) (s : State) (examined : List CueId), P s → P (followWalk f fuel s examined)
  | 0, _, _, h => h
  | fuel + 1, s, examined, h => by
    unfold followWalk
    split
    · exact h
    · exact followWalk_induct P f step fuel _ _ (step s _ h)

/-- What the carrying out of any tasks keeps, the cue engine's work at a field close keeps. -/
theorem cueWork_induct (P : State → Prop) (step : ∀ s tasks, P s → P (s.carryOut tasks)) (s : State) (f : Field)
    (skip : List CueId) (h : P s) : P (s.cueWork f skip) :=
  followWalk_induct P f step _ _ _ (step _ _ (step _ _ h))

theorem cueWork_cuesOnly (s : State) (f : Field) (skip : List CueId) : CuesOnly s (s.cueWork f skip) :=
  cueWork_induct (CuesOnly s) (fun _ _ h => h.trans (carryOut_cuesOnly ..)) s f skip (.refl s)

theorem updateNotice_trackingOnly (s : State) (n : ChainNo) (u : Field) (report : Bool) :
    TrackingOnly s (s.updateNotice n u report) := by
  have h : TrackingOnly s (s.recordUpdate n u) := rfl
  unfold State.updateNotice
  dsimp only
  split
  · exact (h.trans (carryOut_cuesOnly ..).trackingOnly).trans (carryOut_cuesOnly ..).trackingOnly
  · exact h.trans (carryOut_cuesOnly ..).trackingOnly

end Sys2Proof.Machine
end

