-- ==== Sys2Proof/Laws/Changes.lean ====
section
/-! SUPPORT. What one task of the cue engine can do to the states of the LIVE cues (R72, R73, R77), said once, and that carrying out
the tasks of an event leaves nothing owed: no WAITING head, no unfinished follower of a FAILED or ABANDONED cue. -/

namespace Sys2Proof.Machine

/-! ### What the rules of eligibility read of a cue -/

/-- A cue as R72 and the fourth step of R77 see it. -/
structure Brief where
  id     : CueId
  chain  : ChainNo
  follow : Option CueId
  state  : CueState
deriving DecidableEq, Repr

/-- A cue as the rules of eligibility see it. -/
def Cue.brief (c : Cue) : Brief :=
  { id := c.fields.id, chain := c.fields.chain, follow := c.fields.follow, state := c.runtime.state }

/-- The LIVE bank as the rules of eligibility see it. -/
def State.briefs (s : State) : List Brief := s.cues.live.map Cue.brief

/-- The bank with the state of one cue changed. -/
def setState (l : List Brief) (id : CueId) (st : CueState) : List Brief :=
  l.map (fun b => if b.id = id then { b with state := st } else b)

theorem mem_setState {l : List Brief} {id : CueId} {st : CueState} {b : Brief} (h : b ∈ setState l id st) :
    (b ∈ l ∧ b.id ≠ id) ∨ ∃ a ∈ l, a.id = id ∧ b = { a with state := st } := by
  obtain ⟨a, ha, rfl⟩ := List.mem_map.mp h
  by_cases e : a.id = id
  · exact .inr ⟨a, ha, e, by simp [e]⟩
  · exact .inl (by simp [e, ha])

theorem setState_ids (l : List Brief) (id : CueId) (st : CueState) :
    (setState l id st).map Brief.id = l.map Brief.id := by
  simp only [setState, List.map_map]
  apply List.map_congr_left
  intro a _
  simp only [Function.comp]
  split <;> rfl

/-- In a bank without repeated ids, an id names one cue. -/
theorem brief_unique {l : List Brief} (h : (l.map Brief.id).Nodup) {a b : Brief} (ha : a ∈ l) (hb : b ∈ l)
    (e : a.id = b.id) : a = b := by
  induction l with
  | nil => cases ha
  | cons x l ih =>
    simp only [List.map_cons, List.nodup_cons] at h
    rcases List.mem_cons.mp ha with rfl | ha' <;> rcases List.mem_cons.mp hb with rfl | hb'
    · rfl
    · exact absurd (e ▸ List.mem_map_of_mem hb') h.1
    · exact absurd (e ▸ List.mem_map_of_mem ha') h.1
    · exact ih h.2 ha' hb'

theorem setState_same {l : List Brief} (h : (l.map Brief.id).Nodup) {b : Brief} (hb : b ∈ l) :
    setState l b.id b.state = l := by
  unfold setState
  conv => rhs; rw [← List.map_id l]
  apply List.map_congr_left
  intro a ha
  by_cases e : a.id = b.id
  · simp [brief_unique h ha hb e]
  · simp [e]

theorem setState_setState (l : List Brief) (id : CueId) (a b : CueState) :
    setState (setState l id a) id b = setState l id b := by
  simp only [setState, List.map_map]
  apply List.map_congr_left
  intro x _
  by_cases e : x.id = id <;> simp [e]

@[simp] theorem setRuntime_briefs (s : State) (id : CueId) (r : CueRuntime) :
    (s.setRuntime id r).briefs = setState s.briefs id r.state := by
  simp only [State.briefs, State.setRuntime, putRuntime, setState, List.map_map]
  apply List.map_congr_left
  intro c _
  by_cases e : c.fields.id = id <;> simp [e, Cue.brief]

theorem briefs_of_cues {s t : State} (h : t.cues = s.cues) : t.briefs = s.briefs := by simp [State.briefs, h]

/-! ### What leaves the cue engine's own record alone -/

@[simp] theorem raise_cues (s : State) (src : Source) (d : Detail) : (s.raise src d).cues = s.cues := by
  rw [raise_alarmsOnly s src d]

@[simp] theorem requestSnapshot_cues (s : State) (k : TriggerKind) (tag : Option (BitVec 16)) :
    (s.requestSnapshot k tag).cues = s.cues := by
  rw [requestSnapshot_alarmsOnly s k tag]

@[simp] theorem endFlight_cues (s : State) (c : Cue) : (s.endFlight c).cues = s.cues := by
  unfold State.endFlight; split <;> rfl

@[simp] theorem raiseLate_cues (s : State) (c : Cue) : (s.raiseLate c).cues = s.cues := by
  unfold State.raiseLate; split <;> simp

@[simp] theorem lateAndSnapshot_cues (s : State) (c : Cue) (r : CueRuntime) : (s.lateAndSnapshot c r).cues = s.cues := by
  unfold State.lateAndSnapshot; dsimp only; split <;> split <;> simp

@[simp] theorem setCommanded_cues (s : State) (n : ChainNo) (c : Commanded) : (s.setCommanded n c).cues = s.cues := rfl

@[simp] theorem commandChangeover_cues (s : State) (f : CueFields) : (s.commandChangeover f).cues = s.cues := by
  unfold State.commandChangeover; split
  · rfl
  · dsimp only; split <;> simp

@[simp] theorem commandFor_cues (s : State) (f : CueFields) (lamp : Bool) : (s.commandFor f lamp).cues = s.cues := by
  unfold State.commandFor; dsimp only; split <;> simp

@[simp] theorem queueActions_cues (s : State) (c : Cue) : (s.queueActions c).cues = s.cues := by
  unfold State.queueActions; split <;> rfl

/-! ### What one task can do -/

/-- A task that changes no cue's state and brings nothing. -/
def Still (s : State) (e : Effect) : Prop :=
  e.state.briefs = s.briefs ∧ e.state.cues.preset = s.cues.preset ∧ e.state.cues.swapPending = s.cues.swapPending
    ∧ e.tasks = [] ∧ e.swapped = false

/-- A task that changes the state of one cue (R77): the followers and the chain's eligibility follow, or the swap is taken. -/
def Changed (s : State) (c : Cue) (st : CueState) (e : Effect) : Prop :=
  (e.swapped = false ∧ e.state.briefs = setState s.briefs c.fields.id st ∧ e.state.cues.preset = s.cues.preset
      ∧ e.state.cues.swapPending = s.cues.swapPending
      ∧ e.tasks = (if st = .failed ∨ st = .abandoned then followersOf e.state.cues.live c.fields.id else [])
          ++ [.eligible c.fields.chain])
    ∨ (e.swapped = true ∧ ∃ u : State, u.briefs = setState s.briefs c.fields.id st ∧ u.cues.preset = s.cues.preset
        ∧ u.cues.swapPending = true ∧ u.swapFree = true ∧ e.state = u.takeSwap ∧ e.tasks = u.takeSwap.eligibleAll)

/-- A task that acts on one cue: nothing changes, or the cue's state becomes one of those allowed. -/
def Acted (s : State) (c : Cue) (allowed : List CueState) (e : Effect) : Prop :=
  Still s e ∨ ∃ st ∈ allowed, (st = .withheld → c.runtime.state ≠ .withheld) ∧ Changed s c st e

/-- What a decision or an evaluation can make of a cue. -/
def decided : List CueState := [.withheld, .fired, .done, .failed]

/-- What a confirmation can make of a FIRED cue. -/
def concluded : List CueState := [.done, .failed]

theorem quiet_still (s : State) : Still s s.quiet := ⟨rfl, rfl, rfl, rfl, rfl⟩

theorem Acted.mono {s : State} {c : Cue} {a b : List CueState} {e : Effect} (h : Acted s c a e) (ab : ∀ x ∈ a, x ∈ b) :
    Acted s c b e := by
  rcases h with h | ⟨st, hs, h⟩
  · exact .inl h
  · exact .inr ⟨st, ab st hs, h⟩

/-- What is said of an acting depends on the state before only through what the rules of eligibility read of it. -/
theorem Acted.of_same {s u : State} {c d : Cue} {a : List CueState} {e : Effect} (h : Acted u d a e)
    (hb : u.briefs = s.briefs) (hp : u.cues.preset = s.cues.preset) (hq : u.cues.swapPending = s.cues.swapPending)
    (hc : d.brief = c.brief) : Acted s c a e := by
  simp only [Cue.brief, Brief.mk.injEq] at hc
  simpa only [Acted, Still, Changed, hb, hp, hq, hc.1, hc.2.1, hc.2.2.2] using h

theorem settleChange_changed {s u : State} (c : Cue) (r : CueRuntime) (hb : u.briefs = setState s.briefs c.fields.id r.state)
    (hp : u.cues.preset = s.cues.preset) (hq : u.cues.swapPending = s.cues.swapPending) :
    Changed s c r.state (u.settleChange c r) := by
  have key : ∀ v : State, v.cues = u.cues →
      Changed s c r.state
        (if c.holdsSwap && v.cues.swapPending && v.swapFree then
          { state := v.takeSwap, tasks := v.takeSwap.eligibleAll, swapped := true }
        else
          { state := v
            tasks := (if r.state == .failed || r.state == .abandoned then followersOf v.cues.live c.fields.id else [])
              ++ [.eligible c.fields.chain] }) := by
    intro v hv
    have hvb := briefs_of_cues hv
    split
    · next h =>
      simp only [Bool.and_eq_true] at h
      exact .inr ⟨rfl, v, hvb.trans hb, by rw [hv, hp], h.1.2, h.2, rfl, rfl⟩
    · refine .inl ⟨rfl, hvb.trans hb, by simp [hv, hp], by simp [hv, hq], ?_⟩
      simp
  unfold State.settleChange
  dsimp only
  split
  · exact key _ rfl
  · exact key _ rfl

/-- A change of state whose other writes leave the cue engine's record alone. -/
theorem changed_of_writes {s u : State} (c : Cue) (r : CueRuntime)
    (h : u.cues = (s.setRuntime c.fields.id r).cues) : Changed s c r.state (u.settleChange c r) :=
  settleChange_changed c r ((briefs_of_cues h).trans (setRuntime_briefs ..)) (by rw [h]; rfl) (by rw [h]; rfl)

theorem failCue_changed (s : State) (c : Cue) (r : CueRuntime) (cause : FailureCause) :
    Changed s c .failed (s.failCue c r cause) :=
  changed_of_writes c { r with state := .failed, cause := cause, effectField := none, expected := none } (by simp)

theorem abandonCue_changed (s : State) (c : Cue) : Changed s c .abandoned (s.abandonCue c) :=
  changed_of_writes c { c.runtime with state := .abandoned, effectField := none, expected := none } (by simp)

theorem confirmCue_changed (s : State) (c : Cue) : Changed s c .done (s.confirmCue c) :=
  changed_of_writes c { c.runtime with state := .done, effectField := none, expected := none } (by simp)

theorem doneAtOnce_changed (s : State) (c : Cue) (b : Bool) : Changed s c .done (s.doneAtOnce c b) :=
  changed_of_writes c { c.runtime.firedAt s.fieldCount with
    state := .done, rehearsed := (c.runtime.firedAt s.fieldCount).rehearsed || b } (by simp)

theorem fireCue_changed (s : State) (c : Cue) : Changed s c .fired (s.fireCue c) := by
  have writes (u : State) (late lamp : Bool) :
      let v := ((if late then u.raiseLate c else u).queueActions c).commandFor c.fields lamp
      (if c.fields.snapshot && v.snaps.settings.cue then v.requestSnapshot .cue (some c.fields.id) else v).cues = u.cues := by
    dsimp only
    split <;> simp <;> split <;> simp
  exact changed_of_writes c _ (writes _ _ _)

/-- A write of runtime fields that keeps the cue's state leaves what the rules of eligibility read. -/
theorem setRuntime_keeps {s : State} (h : (s.briefs.map Brief.id).Nodup) {c : Cue} (hc : c.brief ∈ s.briefs) (r : CueRuntime)
    (hr : r.state = c.runtime.state) : (s.setRuntime c.fields.id r).briefs = s.briefs := by
  rw [setRuntime_briefs, hr]
  exact setState_same h hc

section Acts

variable {s : State} {c : Cue} (h : (s.briefs.map Brief.id).Nodup) (hc : c.brief ∈ s.briefs)

include h hc

theorem withholdCue_acted (reason : WithholdReason) : Acted s c decided (s.withholdCue c reason) := by
  unfold State.withholdCue
  split
  · exact .inl ⟨setRuntime_keeps h hc _ rfl, rfl, rfl, rfl, rfl⟩
  · next hw =>
    refine .inr ⟨.withheld, by simp [decided], fun _ e => hw (by simp [e]), ?_⟩
    exact changed_of_writes c { c.runtime with state := .withheld, reason := reason, withholdCount := 0 } (by simp)

theorem decideCue_acted : Acted s c decided (s.decideCue c) := by
  have done (b : Bool) : Acted s c decided (s.doneAtOnce c b) :=
    .inr ⟨.done, by simp [decided], by simp, doneAtOnce_changed s c b⟩
  unfold State.decideCue
  split
  · exact withholdCue_acted h hc _
  · exact done _
  · split
    · exact done _
    · split
      · exact done _
      · exact .inr ⟨.fired, by simp [decided], by simp, fireCue_changed s c⟩

theorem dueCue_acted (due : Field) : Acted s c decided (s.dueCue c due) := by
  have e := setRuntime_keeps h hc { c.runtime with dueField := some due } rfl
  exact (decideCue_acted (s := s.setRuntime c.fields.id { c.runtime with dueField := some due })
    (c := { c with runtime := { c.runtime with dueField := some due } }) (by rw [e]; exact h) (by rw [e]; exact hc)).of_same
    e rfl rfl rfl

theorem evaluateCue_acted : Acted s c decided (s.evaluateCue c) := by
  unfold State.evaluateCue
  dsimp only
  split
  · exact .inl (quiet_still s)
  · split
    · split
      · split
        · exact .inr ⟨.failed, by simp [decided], by simp, failCue_changed ..⟩
        · exact dueCue_acted h hc _
      · split
        · exact .inl ⟨setRuntime_keeps h hc { c.runtime with lampSent := true } rfl, rfl, rfl, rfl, rfl⟩
        · exact .inl (quiet_still s)
    · exact .inl (quiet_still s)

theorem afterArming_acted : Acted s c decided (s.afterArming c) := by
  unfold State.afterArming
  split
  · exact dueCue_acted h hc _
  · exact .inl (quiet_still s)
  · exact evaluateCue_acted h hc
  · exact evaluateCue_acted h hc
  · exact .inl (quiet_still s)
  · exact .inl (quiet_still s)

theorem actOnTake_acted : Acted s c decided (s.actOnTake c) := by
  unfold State.actOnTake
  split
  · split
    · exact dueCue_acted h hc _
    · exact evaluateCue_acted h hc
  · exact decideCue_acted h hc
  all_goals exact .inl (quiet_still s)

theorem recheckCue_acted : Acted s c decided (s.recheckCue c) := by
  unfold State.recheckCue
  split
  · dsimp only
    split
    · exact .inr ⟨.failed, by simp [decided], by simp, failCue_changed ..⟩
    · exact .inl ⟨setRuntime_keeps h hc _ rfl, rfl, rfl, rfl, rfl⟩
  · exact decideCue_acted h hc
  · exact decideCue_acted h hc

theorem followCue_acted (f : Field) : Acted s c decided (s.followCue c f) := by
  unfold State.followCue
  split
  · exact .inl (quiet_still s)
  · split
    · dsimp only
      split
      · exact .inr ⟨.failed, by simp [decided], by simp, failCue_changed ..⟩
      · exact dueCue_acted h hc _
    · exact .inl (quiet_still s)

theorem countConfirm_acted (f : Field) : Acted s c concluded (s.countConfirm c f) := by
  have fails (r : CueRuntime) (cause : FailureCause) : Acted s c concluded (s.failCue c r cause) :=
    .inr ⟨.failed, by simp [concluded], by simp, failCue_changed ..⟩
  unfold State.countConfirm
  split
  · split
    · dsimp only
      split
      · exact fails _ _
      · exact .inl ⟨setRuntime_keeps h hc _ rfl, rfl, rfl, rfl, rfl⟩
    · exact .inl (quiet_still s)
  · split
    · exact fails _ _
    · exact .inl (quiet_still s)

end Acts

theorem confirmCue_acted (s : State) (c : Cue) : Acted s c concluded (s.confirmCue c) :=
  .inr ⟨.done, by simp [concluded], by simp, confirmCue_changed s c⟩

theorem failCue_acted (s : State) (c : Cue) (r : CueRuntime) (cause : FailureCause) :
    Acted s c concluded (s.failCue c r cause) :=
  .inr ⟨.failed, by simp [concluded], by simp, failCue_changed ..⟩

theorem judgeByArrival_acted (s : State) (c : Cue) (f : Field) : Acted s c concluded (s.judgeByArrival c f) := by
  have q : Acted s c concluded s.quiet := .inl (quiet_still s)
  unfold State.judgeByArrival
  dsimp only
  split
  · split
    · split
      · exact q
      · split
        · exact confirmCue_acted ..
        · exact failCue_acted ..
      all_goals exact failCue_acted ..
    · split
      · exact confirmCue_acted ..
      · exact q
    · split
      · exact confirmCue_acted ..
      · exact q
    all_goals exact q
  · exact q

theorem judgeByEntry_acted (s : State) (c : Cue) (x : ChainState) (a : Option Field) :
    Acted s c concluded (s.judgeByEntry c x a) := by
  have q : Acted s c concluded s.quiet := .inl (quiet_still s)
  have left : Acted s c concluded (match a with
      | some f => if judges c.runtime.effectField f then s.failCue c c.runtime .contradicted else s.quiet
      | none => s.quiet) := by
    split
    · split
      · exact failCue_acted ..
      · exact q
    · exact q
  unfold State.judgeByEntry
  cases x
  case atSpeed => exact confirmCue_acted ..
  case idle => exact left
  case cued => exact left
  case spooling => exact left
  case runDown => exact left
  all_goals exact q

/-- What a cue's state can become at one change, but for the arming of a WAITING head and the return to WAITING (the table of
R77). -/
def canBecome : CueState → List CueState
  | .waiting => [.abandoned]
  | .armed => [.withheld, .fired, .done, .failed, .abandoned]
  | .withheld => [.fired, .done, .failed, .abandoned]
  | .fired => [.done, .failed, .abandoned]
  | .done | .failed | .abandoned => []

/-- At most one change of one LIVE cue, by the table of R77. -/
def Moved (s : State) (e : Effect) : Prop :=
  Still s e ∨ ∃ c ∈ s.cues.live, ∃ st ∈ canBecome c.runtime.state, Changed s c st e

theorem brief_mem {s : State} {c : Cue} (h : c ∈ s.cues.live) : c.brief ∈ s.briefs := List.mem_map_of_mem h

theorem liveCue_mem {s : State} {id : CueId} {c : Cue} (h : s.liveCue id = some c) : c ∈ s.cues.live ∧ c.fields.id = id :=
  ⟨List.mem_of_find?_eq_some h, by simpa using List.find?_some h⟩

theorem Acted.moved {s : State} {c : Cue} {allowed : List CueState} {e : Effect} (h : Acted s c allowed e)
    (hc : c ∈ s.cues.live)
    (legal : ∀ st ∈ allowed, (st = .withheld → c.runtime.state ≠ .withheld) → st ∈ canBecome c.runtime.state) :
    Moved s e := by
  rcases h with h | ⟨st, hs, hw, h⟩
  · exact .inl h
  · exact .inr ⟨c, hc, st, legal st hs hw, h⟩

/-- A task on a LIVE cue in one of the given states. -/
theorem onCue_moved {s : State} {id : CueId} {states : List CueState} {act : Cue → Effect}
    (h : ∀ c ∈ s.cues.live, c.runtime.state ∈ states → Moved s (act c)) : Moved s (s.onCue id states act) := by
  unfold State.onCue
  split
  · exact .inl (quiet_still s)
  · next c hc =>
    split
    · next hs => exact h c (liveCue_mem hc).1 (by simpa using hs)
    · exact .inl (quiet_still s)

theorem decided_legal {x : CueState} (h : x ∈ [CueState.armed, .withheld]) :
    ∀ st ∈ decided, (st = .withheld → x ≠ .withheld) → st ∈ canBecome x := by
  cases x <;> simp_all [decided, canBecome]

theorem concluded_legal {x : CueState} (h : x ∈ [CueState.fired]) :
    ∀ st ∈ concluded, (st = .withheld → x ≠ .withheld) → st ∈ canBecome x := by
  cases x <;> simp_all [concluded, canBecome]

theorem abandonCue_moved {s : State} {c : Cue} (hc : c ∈ s.cues.live) (hu : CueState.abandoned ∈ canBecome c.runtime.state) :
    Moved s (s.abandonCue c) :=
  .inr ⟨c, hc, .abandoned, hu, abandonCue_changed s c⟩

/-- The bank in which a WAITING head has armed. -/
def State.armed (s : State) (c : Cue) : State := s.setRuntime c.fields.id { c.runtime with state := .armed }

theorem armed_briefs (s : State) (c : Cue) : (s.armed c).briefs = setState s.briefs c.fields.id .armed := setRuntime_briefs ..

theorem armed_nodup {s : State} (c : Cue) (h : (s.briefs.map Brief.id).Nodup) : ((s.armed c).briefs.map Brief.id).Nodup := by
  rw [armed_briefs, setState_ids]; exact h

/-- Computing the eligibility of a chain: only a WAITING head changes, and it may change further once armed (R72, R74). -/
theorem runTask_eligible {s : State} (h : (s.briefs.map Brief.id).Nodup) (n : ChainNo) :
    (s.runTask (.eligible n) = s.quiet ∧ ∀ c, headOf s.cues.live n = some c → c.runtime.state ≠ .waiting)
      ∨ ∃ c, headOf s.cues.live n = some c ∧ c.runtime.state = .waiting ∧ Moved (s.armed c) (s.runTask (.eligible n)) := by
  simp only [State.runTask, State.computeEligible]
  split
  · next hn => exact .inl ⟨rfl, by simp [hn]⟩
  · next c hc =>
    split
    · next hw =>
      refine .inr ⟨c, hc, by simpa using hw, ?_⟩
      have hm : c ∈ s.cues.live := List.mem_of_find?_eq_some hc
      have hin : ({ c with runtime := { c.runtime with state := .armed } } : Cue) ∈ (s.armed c).cues.live :=
        List.mem_map.mpr ⟨c, hm, by simp⟩
      exact (afterArming_acted (armed_nodup c h) (brief_mem hin)).moved hin (decided_legal (by simp))
    · next hw => exact .inl ⟨rfl, fun d hd => by rw [hc] at hd; cases hd; simpa using hw⟩

/-- Abandoning a follower: an unfinished cue is abandoned, any other left as it is (R77). -/
theorem runTask_abandonFollower {s : State} (h : (s.briefs.map Brief.id).Nodup) (id : CueId) :
    (s.runTask (.abandonFollower id) = s.quiet ∧ ∀ d ∈ s.briefs, d.id = id → d.state.finished = true)
      ∨ ∃ c ∈ s.cues.live, c.fields.id = id ∧ .abandoned ∈ canBecome c.runtime.state
        ∧ s.runTask (.abandonFollower id) = s.abandonCue c := by
  simp only [State.runTask, State.onCue]
  split
  · next hl =>
    refine .inl ⟨rfl, fun d hd e => ?_⟩
    obtain ⟨c, hcm, rfl⟩ := List.mem_map.mp hd
    have := List.find?_eq_none.mp hl c hcm
    simp [show c.fields.id = id from e] at this
  · next c hl =>
    obtain ⟨hcm, hci⟩ := liveCue_mem hl
    split
    · next hs => exact .inr ⟨c, hcm, hci, by cases hx : c.runtime.state <;> simp_all [canBecome], rfl⟩
    · next hs =>
      refine .inl ⟨rfl, fun d hd e => ?_⟩
      rw [brief_unique h hd (brief_mem hcm) (by rw [e, ← hci]; rfl)]
      show c.runtime.state.finished = true
      cases hx : c.runtime.state <;> simp_all [CueState.finished]

/-- One task makes at most one change of state by the table of R77, of a chain's WAITING head after it has armed. -/
theorem runTask_moved {s : State} (h : (s.briefs.map Brief.id).Nodup) (t : Task) :
    Moved s (s.runTask t)
      ∨ ∃ n c, t = .eligible n ∧ headOf s.cues.live n = some c ∧ c.runtime.state = .waiting
        ∧ Moved (s.armed c) (s.runTask t) := by
  have decision {id : CueId} {states : List CueState} {act : Cue → Effect} (hs : ∀ x ∈ states, x ∈ [CueState.armed, .withheld])
      (ha : ∀ c ∈ s.cues.live, Acted s c decided (act c)) : Moved s (s.onCue id states act) :=
    onCue_moved fun c hc hx => (ha c hc).moved hc (decided_legal (hs _ hx))
  have conclusion {id : CueId} {act : Cue → Effect} (ha : ∀ c ∈ s.cues.live, Acted s c concluded (act c)) :
      Moved s (s.onCue id [.fired] act) :=
    onCue_moved fun c hc hx => (ha c hc).moved hc (concluded_legal hx)
  have abandonment {id : CueId} {states : List CueState} (hs : ∀ x ∈ states, CueState.abandoned ∈ canBecome x) :
      Moved s (s.onCue id states s.abandonCue) :=
    onCue_moved fun c hc hx => abandonCue_moved hc (hs _ hx)
  have still (c : Cue) : ∀ a, Acted s c a s.quiet := fun _ => .inl (quiet_still s)
  cases t with
  | eligible n =>
    rcases runTask_eligible h n with ⟨e, -⟩ | ⟨c, hn, hw, hm⟩
    · exact .inl (e ▸ .inl (quiet_still s))
    · exact .inr ⟨n, c, rfl, hn, hw, hm⟩
  | abandonFollower id => exact .inl (abandonment (by simp [canBecome]))
  | abandonStopped id => exact .inl (abandonment (by simp [canBecome]))
  | abandonNamed id => exact .inl (abandonment (by simp [canBecome]))
  | evaluate id =>
    refine .inl (decision (by simp) fun c hc => ?_)
    split
    · exact evaluateCue_acted h (brief_mem hc)
    · exact still c _
  | taken id => exact .inl (decision (by simp) fun c hc => actOnTake_acted h (brief_mem hc))
  | recheck id => exact .inl (decision (by simp) fun c hc => recheckCue_acted h (brief_mem hc))
  | follow id f =>
    refine .inl (decision (by simp) fun c hc => ?_)
    split
    · exact followCue_acted h (brief_mem hc) f
    · exact still c _
  | fail id cause => exact .inl (conclusion fun c _ => failCue_acted ..)
  | confirm id => exact .inl (conclusion fun c _ => confirmCue_acted ..)
  | judgeArrival id f => exact .inl (conclusion fun c _ => judgeByArrival_acted ..)
  | judgeEntry id x a =>
    refine .inl (conclusion fun c _ => ?_)
    split
    · exact judgeByEntry_acted ..
    · exact still c _
  | countConfirm id f => exact .inl (conclusion fun c hc => countConfirm_acted h (brief_mem hc) f)

/-! ### Nothing is left owed -/

/-- Whatever a bank still owes stands among the tasks: the eligibility of every chain whose head is WAITING, and the abandonment of
every unfinished follower of a FAILED or ABANDONED cue. -/
def Covered (l : List Brief) (tasks : List Task) : Prop :=
  (∀ front b back, l = front ++ b :: back → b.state = .waiting →
      (∀ a ∈ front, a.chain = b.chain → a.state.finished = true) → Task.eligible b.chain ∈ tasks)
    ∧ ∀ x ∈ l, x.state = .failed ∨ x.state = .abandoned → ∀ d ∈ l, d.follow = some x.id → d.state.finished = false →
      Task.abandonFollower d.id ∈ tasks

theorem Covered.mono {l : List Brief} {a b : List Task} (h : Covered l a) (ab : ∀ t ∈ a, t ∈ b) : Covered l b :=
  ⟨fun f x k e w q => ab _ (h.1 f x k e w q), fun x hx hs d hd hf hu => ab _ (h.2 x hx hs d hd hf hu)⟩

theorem headsInOrder_mem {n : ChainNo} {c : Cue} :
    ∀ (front back : List Cue) (seen : List ChainNo), c.fields.chain = n → c.runtime.state.finished = false → n ∉ seen →
      (∀ a ∈ front, a.fields.chain = n → a.runtime.state.finished = true) → n ∈ headsInOrder (front ++ c :: back) seen
  | [], back, seen, hn, hu, hs, _ => by simp [headsInOrder, hn, hu, hs]
  | a :: front, back, seen, hn, hu, hs, hf => by
    have ih := headsInOrder_mem (n := n) (c := c) front back
    rw [List.cons_append, headsInOrder]
    split
    · exact ih seen hn hu hs (fun x hx => hf x (by simp [hx]))
    · next h =>
      by_cases e : a.fields.chain = n
      · simp [e]
      · refine List.mem_cons_of_mem _ (ih _ hn hu ?_ (fun x hx => hf x (by simp [hx])))
        simp [hs, Ne.symm e]

/-- After the eligibility of every chain has been made a task, no bank of WAITING cues owes more. -/
theorem eligibleAll_covered {s : State} (h : ∀ c ∈ s.cues.live, c.runtime.state = .waiting) : Covered s.briefs s.eligibleAll := by
  constructor
  · intro front b back e hw hf
    obtain ⟨f, k, el, rfl, ek⟩ := List.map_eq_append_iff.mp e
    obtain ⟨c, k', rfl, rfl, -⟩ := List.map_eq_cons_iff.mp ek
    refine List.mem_map.mpr ⟨c.fields.chain, ?_, rfl⟩
    rw [el]
    have hw : c.runtime.state = .waiting := hw
    refine headsInOrder_mem f k' [] rfl (by simp [hw, CueState.finished]) (by simp) fun a ha hc => ?_
    exact hf a.brief (List.mem_map_of_mem ha) hc
  · intro x hx hs
    obtain ⟨c, hc, rfl⟩ := List.mem_map.mp hx
    simp [Cue.brief, h c hc] at hs

/-- A split of a bank with one state changed is a split of the bank before. -/
theorem setState_split {l front back : List Brief} {b : Brief} {id : CueId} {st : CueState}
    (e : setState l id st = front ++ b :: back) :
    ∃ f a k, l = f ++ a :: k ∧ b = (if a.id = id then { a with state := st } else a)
      ∧ ∀ x ∈ f, (if x.id = id then { x with state := st } else x) ∈ front := by
  obtain ⟨f, k, rfl, rfl, ek⟩ := List.map_eq_append_iff.mp e
  obtain ⟨a, k', rfl, rfl, -⟩ := List.map_eq_cons_iff.mp ek
  exact ⟨f, a, k', rfl, rfl, fun x hx => List.mem_map_of_mem hx⟩

theorem finished_of_canBecome {x st : CueState} (h : st ∈ canBecome x) (hu : st.finished = false) : x.finished = false := by
  cases st <;> cases x <;> simp_all [canBecome, CueState.finished]

theorem not_waiting_of_canBecome {x st : CueState} (h : st ∈ canBecome x) : st ≠ .waiting := by
  cases st <;> cases x <;> simp_all [canBecome]

/-- One change of state brings what it makes the bank owe. -/
theorem changed_covered {s : State} {c : Cue} {st : CueState} {e : Effect} {rest : List Task}
    (h : (s.briefs.map Brief.id).Nodup) (hp : ∀ d ∈ s.cues.preset, d.runtime.state = .waiting)
    (hc : c ∈ s.cues.live) (hst : st ∈ canBecome c.runtime.state) (he : Changed s c st e)
    (heads : ∀ front b back, s.briefs = front ++ b :: back → b.state = .waiting →
      (∀ a ∈ front, a.chain = b.chain → a.state.finished = true) → b.chain ≠ c.fields.chain → Task.eligible b.chain ∈ rest)
    (followers : ∀ x ∈ s.briefs, x.state = .failed ∨ x.state = .abandoned → ∀ d ∈ s.briefs, d.follow = some x.id →
      d.state.finished = false → d.id ≠ c.fields.id ∨ st.finished = false → Task.abandonFollower d.id ∈ rest) :
    Covered e.state.briefs (e.tasks ++ if e.swapped then [] else rest) := by
  have one {a : Brief} (ha : a ∈ s.briefs) (e : a.id = c.fields.id) : a = c.brief := brief_unique h ha (brief_mem hc) e
  rcases he with ⟨hs, hb, -, -, ht⟩ | ⟨hs, u, -, hup, -, -, hst', ht⟩
  · rw [hb, ht, hs]
    constructor
    · intro front b back e hw hf
      obtain ⟨f, a, k, el, rfl, hm⟩ := setState_split e
      have ha : a ∈ s.briefs := by rw [el]; simp
      by_cases ei : a.id = c.fields.id
      · simp [ei, not_waiting_of_canBecome hst] at hw
      · simp only [ei, ite_false] at hw hf ⊢
        by_cases en : a.chain = c.fields.chain
        · simp [en]
        · refine List.mem_append_right _ (heads f a k el hw (fun x hx hxc => ?_) en)
          have hxm : x ∈ s.briefs := by rw [el]; simp [hx]
          have hxi : x.id ≠ c.fields.id := fun ex => en (by rw [← hxc, one hxm ex]; rfl)
          simpa [hxi] using hf _ (hm x hx) (by simp [hxi, hxc])
    · intro x hx hxs d hd hdf hdu
      have old : Task.abandonFollower d.id ∈ rest ∨ (x.id = c.fields.id ∧ x.state = st) := by
        rcases mem_setState hx with ⟨hx, hxi⟩ | ⟨a, ha, hai, rfl⟩
        · refine .inl ?_
          rcases mem_setState hd with ⟨hd, hdi⟩ | ⟨a, ha, hai, rfl⟩
          · exact followers x hx hxs d hd hdf hdu (.inl hdi)
          · refine followers x hx hxs a ha hdf ?_ (.inr hdu)
            rw [one ha hai]
            exact finished_of_canBecome hst hdu
        · exact .inr ⟨hai, rfl⟩
      rcases old with old | ⟨hxi, hxs'⟩
      · exact List.mem_append_right _ (by simpa using old)
      · refine List.mem_append_left _ (List.mem_append_left _ ?_)
        rw [if_pos (hxs' ▸ hxs)]
        rw [← hb] at hd
        obtain ⟨d', hd', rfl⟩ := List.mem_map.mp hd
        refine List.mem_map.mpr ⟨d', List.mem_filter.mpr ⟨hd', ?_⟩, rfl⟩
        have hdf : d'.fields.follow = some x.id := hdf
        simp [hdf, hxi]
  · rw [hst', ht, hs]
    refine (eligibleAll_covered (s := u.takeSwap) fun d hd => ?_).mono (fun t h => by simpa using h)
    exact hp d (hup ▸ hd)

/-- The head of a chain is the cue at which the bank splits behind finished cues of the chain. -/
theorem headOf_split {f k : List Cue} {c : Cue} (hu : c.runtime.state.finished = false)
    (hf : ∀ a ∈ f, a.fields.chain = c.fields.chain → a.runtime.state.finished = true) :
    headOf (f ++ c :: k) c.fields.chain = some c := by
  unfold headOf
  rw [List.find?_append, List.find?_eq_none.mpr (by simpa using hf)]
  simp [hu]

/-- A task that is neither an eligibility nor the abandonment of a follower pays nothing that is owed. -/
theorem covered_tail {l : List Brief} {t : Task} {rest : List Task} (h : Covered l (t :: rest))
    (ht : ∀ n, t ≠ .eligible n) (hf : ∀ id, t ≠ .abandonFollower id) : Covered l rest :=
  ⟨fun f b k e w q => (List.mem_cons.mp (h.1 f b k e w q)).resolve_left (ht _ ·.symm),
    fun x hx hs d hd hdf hdu => (List.mem_cons.mp (h.2 x hx hs d hd hdf hdu)).resolve_left (hf _ ·.symm)⟩

theorem moved_covered {s : State} {e : Effect} {rest : List Task} (h : (s.briefs.map Brief.id).Nodup)
    (hp : ∀ d ∈ s.cues.preset, d.runtime.state = .waiting) (he : Moved s e) (hc : Covered s.briefs rest) :
    Covered e.state.briefs (e.tasks ++ if e.swapped then [] else rest) := by
  rcases he with ⟨hb, -, -, ht, hs⟩ | ⟨c, hm, st, hst, he⟩
  · rw [hb, ht, hs]; exact hc
  · exact changed_covered h hp hm hst he (fun f b k e w q _ => hc.1 f b k e w q)
      (fun x hx hs d hd hdf hdu _ => hc.2 x hx hs d hd hdf hdu)

/-- The head that arms pays the eligibility of its chain. -/
theorem armed_covered {s : State} {n : ChainNo} {c : Cue} {rest : List Task} (h : (s.briefs.map Brief.id).Nodup)
    (hn : headOf s.cues.live n = some c) (hw : c.runtime.state = .waiting) (hc : Covered s.briefs (.eligible n :: rest)) :
    Covered (setState s.briefs c.fields.id .armed) rest := by
  have hm : c ∈ s.cues.live := List.mem_of_find?_eq_some hn
  have hcn : c.fields.chain = n := by have := List.find?_some hn; simp_all
  have one {a : Brief} (ha : a ∈ s.briefs) (e : a.id = c.fields.id) : a = c.brief := brief_unique h ha (brief_mem hm) e
  constructor
  · intro front b back e hbw hf
    obtain ⟨f, a, k, el, rfl, hmem⟩ := setState_split e
    by_cases ei : a.id = c.fields.id
    · simp [ei] at hbw
    · simp only [ei, ite_false] at hbw hf ⊢
      have hfa : ∀ x ∈ f, x.chain = a.chain → x.state.finished = true := fun x hx hxc => by
        have := hf _ (hmem x hx) (by split <;> exact hxc)
        by_cases exi : x.id = c.fields.id
        · simp [exi, CueState.finished] at this
        · simpa [exi] using this
      have := hc.1 f a k el hbw hfa
      refine (List.mem_cons.mp this).resolve_left fun en => ?_
      obtain ⟨f', k', el', rfl, ek⟩ := List.map_eq_append_iff.mp el
      obtain ⟨d, k'', rfl, rfl, -⟩ := List.map_eq_cons_iff.mp ek
      have hd : headOf s.cues.live d.fields.chain = some d := by
        rw [el']
        refine headOf_split ?_ fun x hx hxc => hfa x.brief (List.mem_map_of_mem hx) hxc
        have : d.runtime.state = .waiting := hbw
        simp [this, CueState.finished]
      have en' : d.fields.chain = n := by simpa [Cue.brief] using en
      rw [en', hn] at hd
      exact ei (by cases hd; rfl)
  · intro x hx hxs d hd hdf hdu
    have key (d' : Brief) (hd' : d' ∈ s.briefs) (hf' : d'.follow = some x.id) (hu' : d'.state.finished = false) :
        Task.abandonFollower d'.id ∈ rest := by
      rcases mem_setState hx with ⟨hx, -⟩ | ⟨a, -, -, rfl⟩
      · exact (List.mem_cons.mp (hc.2 x hx hxs d' hd' hf' hu')).resolve_left (by simp)
      · simp at hxs
    rcases mem_setState hd with ⟨hd, -⟩ | ⟨a, ha, hai, rfl⟩
    · exact key d hd hdf hdu
    · refine key a ha hdf ?_
      rw [one ha hai]
      simp [Cue.brief, hw, CueState.finished]

/-- What a task leaves owed stands among what it brings and what stands behind it. -/
theorem runTask_covered {s : State} {t : Task} {rest : List Task} (h : (s.briefs.map Brief.id).Nodup)
    (hp : ∀ d ∈ s.cues.preset, d.runtime.state = .waiting) (hc : Covered s.briefs (t :: rest)) :
    Covered (s.runTask t).state.briefs ((s.runTask t).tasks ++ if (s.runTask t).swapped then [] else rest) := by
  cases t with
  | eligible n =>
    have still (q : ∀ c, headOf s.cues.live n = some c → c.runtime.state ≠ .waiting) : Covered s.briefs rest := by
      refine ⟨fun f b k el w hf => (List.mem_cons.mp (hc.1 f b k el w hf)).resolve_left fun en => ?_, fun x hx hs d hd hdf hdu =>
        (List.mem_cons.mp (hc.2 x hx hs d hd hdf hdu)).resolve_left (by simp)⟩
      obtain ⟨f', k', el', rfl, ek⟩ := List.map_eq_append_iff.mp el
      obtain ⟨d, k'', rfl, rfl, -⟩ := List.map_eq_cons_iff.mp ek
      have w' : d.runtime.state = .waiting := w
      have en' : d.fields.chain = n := by simpa [Cue.brief] using en
      refine q d ?_ w'
      rw [el', ← en']
      exact headOf_split (by simp [w', CueState.finished]) fun x hx hxc => hf x.brief (List.mem_map_of_mem hx) hxc
    rcases runTask_eligible h n with ⟨e, q⟩ | ⟨c, hn, hw, hm⟩
    · rw [e]
      exact moved_covered h hp (.inl (quiet_still s)) (still q)
    · refine moved_covered (armed_nodup c h) hp hm ?_
      rw [armed_briefs]
      exact armed_covered h hn hw hc
  | abandonFollower id =>
    rcases runTask_abandonFollower h id with ⟨e, q⟩ | ⟨c, hcm, hci, hst, e⟩
    · rw [e]
      refine moved_covered h hp (.inl (quiet_still s)) ⟨fun f b k el w hf =>
        (List.mem_cons.mp (hc.1 f b k el w hf)).resolve_left (by simp), fun x hx hs d hd hdf hdu =>
        (List.mem_cons.mp (hc.2 x hx hs d hd hdf hdu)).resolve_left fun en => ?_⟩
      have := q d hd (by simpa using en)
      simp [hdu] at this
    · rw [e]
      refine changed_covered h hp hcm hst (abandonCue_changed s c)
        (fun f b k el w hf _ => (List.mem_cons.mp (hc.1 f b k el w hf)).resolve_left (by simp))
        (fun x hx hxs d hd hdf hdu ho => (List.mem_cons.mp (hc.2 x hx hxs d hd hdf hdu)).resolve_left fun en => ?_)
      rcases ho with ho | ho
      · exact ho (by rw [hci]; simpa using en)
      · simp [CueState.finished] at ho
  | _ =>
    rcases runTask_moved h _ with hm | ⟨m, c, e, -⟩
    · exact moved_covered h hp hm (covered_tail hc (by simp) (by simp))
    · cases e

/-! ### Carrying the tasks out -/

/-- No id twice in either bank, and the PRESET bank at its entry values (R59, R61). -/
def BanksApart (s : State) : Prop :=
  (s.briefs.map Brief.id).Nodup ∧ (s.cues.preset.map (fun c => c.fields.id)).Nodup
    ∧ ∀ c ∈ s.cues.preset, c.runtime.state = .waiting

theorem briefs_ids (s : State) : s.briefs.map Brief.id = s.cues.live.map (fun c => c.fields.id) := by
  simp [State.briefs, Cue.brief, Function.comp_def]

theorem BanksApart.of_moved {s : State} {e : Effect} (h : BanksApart s) (he : Moved s e) : BanksApart e.state := by
  have same {u : State} (hi : u.briefs.map Brief.id = s.briefs.map Brief.id) (hp : u.cues.preset = s.cues.preset) :
      BanksApart u := by
    unfold BanksApart; rw [hi, hp]; exact h
  rcases he with ⟨hb, hp, -⟩ | ⟨c, -, st, -, ⟨-, hb, hp, -⟩ | ⟨-, u, hb, hp, -, -, hu, -⟩⟩
  · exact same (by rw [hb]) hp
  · exact same (by rw [hb, setState_ids]) hp
  · have := same (u := u) (by rw [hb, setState_ids]) hp
    rw [hu]
    refine ⟨?_, ?_, ?_⟩
    · rw [briefs_ids]; exact this.2.1
    · have h1 := this.1
      rw [briefs_ids] at h1
      simpa [State.takeSwap, Cue.atEntry, Function.comp_def] using h1
    · simp [State.takeSwap, Cue.atEntry]

theorem runTask_banksApart {s : State} (h : BanksApart s) (t : Task) : BanksApart (s.runTask t).state := by
  rcases runTask_moved h.1 t with hm | ⟨n, c, -, -, -, hm⟩
  · exact h.of_moved hm
  · exact BanksApart.of_moved ⟨armed_nodup c h.1, h.2⟩ hm

/-- What is covered stays covered to the end of the tasks. -/
theorem runTasks_covered : ∀ (fuel : Nat) (s : State) (tasks : List Task), BanksApart s → Covered s.briefs tasks →
    Covered (runTasks fuel s tasks).1.briefs (runTasks fuel s tasks).2
  | 0, _, _, _, hc => hc
  | _ + 1, _, [], _, hc => hc
  | fuel + 1, s, t :: rest, hb, hc => by
    unfold runTasks
    exact runTasks_covered fuel _ _ (runTask_banksApart hb t) (runTask_covered hb.1 hb.2.2 hc)

theorem mem_allChains (n : ChainNo) : n ∈ allChains := by
  revert n; decide

/-- A bank that owes nothing is settled. -/
theorem settled_iff_covered (s : State) : s.cues.settled = true ↔ Covered s.briefs [] := by
  simp only [CueEngine.settled, Bool.and_eq_true, List.all_eq_true]
  constructor
  · rintro ⟨h1, h2⟩
    refine ⟨fun f b k el w hf => ?_, fun x hx hs d hd hdf hdu => ?_⟩
    · obtain ⟨f', k', el', rfl, ek⟩ := List.map_eq_append_iff.mp el
      obtain ⟨d, k'', rfl, rfl, -⟩ := List.map_eq_cons_iff.mp ek
      have w' : d.runtime.state = .waiting := w
      have := h1 d.fields.chain (mem_allChains _)
      rw [el', headOf_split (by simp [w', CueState.finished]) fun x hx hxc => hf x.brief (List.mem_map_of_mem hx) hxc] at this
      simp [w'] at this
    · obtain ⟨c, hc, rfl⟩ := List.mem_map.mp hx
      obtain ⟨d, hdm, rfl⟩ := List.mem_map.mp hd
      have hs' : c.runtime.state = .failed ∨ c.runtime.state = .abandoned := hs
      have hdf' : d.fields.follow = some c.fields.id := hdf
      have hdu' : d.runtime.state.finished = false := hdu
      have := h2 c hc
      rcases hs' with e | e <;> simp [e] at this <;> simpa [hdf', hdu'] using this d hdm
  · rintro ⟨h1, h2⟩
    refine ⟨fun n _ => ?_, fun c hc => ?_⟩
    · cases e : headOf s.cues.live n with
      | none => rfl
      | some c =>
        simp only [Option.all_some, bne_iff_ne]
        intro w
        obtain ⟨hp, f, k, el, hf⟩ := List.find?_eq_some_iff_append.mp e
        have hn : c.fields.chain = n := by simp_all
        refine absurd (h1 (f.map Cue.brief) c.brief (k.map Cue.brief) (by simp [State.briefs, el]) w ?_) (by simp)
        intro a ha hac
        obtain ⟨a, hm, rfl⟩ := List.mem_map.mp ha
        have := hf a hm
        have hac' : a.fields.chain = n := hac.trans hn
        simpa [hac', Cue.brief] using this
    · by_cases hs : c.runtime.state = .failed ∨ c.runtime.state = .abandoned
      · simp only [Bool.or_eq_true, List.all_eq_true]
        refine .inr fun d hd => ?_
        by_cases hf : d.fields.follow = some c.fields.id
        · refine .inr ?_
          by_contra hu
          exact absurd (h2 c.brief (brief_mem hc) hs d.brief (brief_mem hd) hf (by simpa [Cue.brief] using hu)) (by simp)
        · exact .inl (by simpa using hf)
      · have := not_or.mp hs
        simp [this.1, this.2]

/-- Tasks that cover what the bank owes settle it, when all are carried out. -/
theorem carryOut_settled {s : State} {tasks : List Task} (hb : BanksApart s) (hc : Covered s.briefs tasks)
    (done : (runTasks (s.cues.fuel tasks) s tasks).2 = []) : (s.carryOut tasks).cues.settled = true := by
  rw [settled_iff_covered]
  have := runTasks_covered (s.cues.fuel tasks) s tasks hb hc
  rw [done] at this
  exact this

end Sys2Proof.Machine
end

