-- ==== Sys2Proof/Laws/Tracker.lean ====
section
/-! SUPPORT. What the chain tracker and the group logic can write: the frame of each notice and of each arrival. -/

namespace Sys2Proof.Machine

/-- A step of the tracker's handing on: it stays in the frame and writes no tracked part of a record. -/
def HandsOn (s t : State) : Prop := TrackingOnly s t ∧ ∀ n, (t.chain n).tracked = (s.chain n).tracked

theorem HandsOn.refl (s : State) : HandsOn s s := ⟨.refl s, fun _ => rfl⟩

theorem HandsOn.trans {s t u : State} (h : HandsOn s t) (k : HandsOn t u) : HandsOn s u :=
  ⟨h.1.trans k.1, fun n => (k.2 n).trans (h.2 n)⟩

theorem CuesOnly.handsOn {s t : State} (h : CuesOnly s t) : HandsOn s t := ⟨h.trackingOnly, h.tracked⟩

theorem AlarmsOnly.handsOn {s t : State} (h : AlarmsOnly s t) : HandsOn s t := h.cuesOnly.handsOn

/-- A change of a group's holder, causes or changeover in flight hands on. -/
theorem setGroup_handsOn (s : State) (g : GroupId) (h : Option ChainNo) (c : AirCauses) :
    HandsOn s (s.setGroup g { s.group g with holder := h, causes := c }) := by
  cases g <;> exact ⟨rfl, fun _ => rfl⟩

/-! ### The group logic -/

theorem airFault_handsOn (s : State) (g : GroupId) (n : ChainNo) (c : Cause) : HandsOn s (s.airFault g n c) := by
  unfold State.airFault
  split
  · exact .refl s
  · exact (setGroup_handsOn s g (s.group g).holder _).trans (raise_alarmsOnly ..).handsOn

theorem judgeAir_handsOn (s : State) (g : GroupId) (n : ChainNo) : HandsOn s (s.judgeAir g n) := by
  have h (u : State) (b : Bool) (c : Cause) : HandsOn u (if b then u.airFault g n c else u) := by
    split
    · exact airFault_handsOn ..
    · exact .refl u
  unfold State.judgeAir
  exact (h s _ _).trans (h _ _ _)

theorem groupUpdate_handsOn (s : State) (n : ChainNo) : HandsOn s (s.groupUpdate n) := by
  unfold State.groupUpdate
  split
  · exact judgeAir_handsOn ..
  · exact .refl s

theorem groupTrouble_handsOn (s : State) (n : ChainNo) (c : Cause) : HandsOn s (s.groupTrouble n c) := by
  unfold State.groupTrouble
  split
  · exact airFault_handsOn ..
  · exact .refl s

theorem beginTenure_handsOn (s : State) (g : GroupId) (n : ChainNo) : HandsOn s (s.beginTenure g n) := by
  have h (u : State) (b : Bool) (c : Cause) : HandsOn u (if b then u.airFault g n c else u) := by
    split
    · exact airFault_handsOn ..
    · exact .refl u
  have j (u : State) (b : Bool) : HandsOn u (if b then u.judgeAir g n else u) := by
    split
    · exact judgeAir_handsOn ..
    · exact .refl u
  unfold State.beginTenure
  exact ((h s _ _).trans (h _ _ _)).trans (j _ _)

theorem deriveHolder_handsOn (s : State) (g : GroupId) : HandsOn s (s.deriveHolder g) := by
  unfold State.deriveHolder
  generalize s.derivedHolder g = x
  dsimp only
  split
  · exact .refl s
  · split
    · exact (setGroup_handsOn ..).trans (beginTenure_handsOn ..)
    · exact setGroup_handsOn ..

theorem groupEntry_handsOn (s : State) (n : ChainNo) (x y : ChainState) : HandsOn s (s.groupEntry n x y) := by
  unfold State.groupEntry
  split
  · split
    · exact deriveHolder_handsOn ..
    · exact .refl s
  · exact .refl s

theorem judgeMuxFault_handsOn (s : State) (g : GroupId) (b : Bool) : HandsOn s (s.judgeMuxFault g b) := by
  unfold State.judgeMuxFault
  dsimp only
  split
  · exact .refl s
  · split
    · exact (carryOut_cuesOnly ..).handsOn
    · split
      · exact .refl s
      · exact (raise_alarmsOnly ..).handsOn

theorem judgeFlight_handsOn (s : State) (g : GroupId) : HandsOn s (s.judgeFlight g) := by
  unfold State.judgeFlight
  split
  · exact .refl s
  · split
    · split
      · exact (carryOut_cuesOnly ..).handsOn
      · split
        · exact .refl s
        · exact (carryOut_cuesOnly ..).handsOn
    · exact .refl s

/-! ### Notices of the tracker -/

theorem updateNotice_handsOn (s : State) (n : ChainNo) (u : Field) (b : Bool) : HandsOn s (s.updateNotice n u b) := by
  have h : HandsOn s (s.recordUpdate n u) := ⟨rfl, fun _ => rfl⟩
  unfold State.updateNotice
  dsimp only
  split
  · exact (h.trans (carryOut_cuesOnly ..).handsOn).trans (carryOut_cuesOnly ..).handsOn
  · exact h.trans (carryOut_cuesOnly ..).handsOn

theorem handUpdate_handsOn (s : State) (n : ChainNo) (u : Field) (b : Bool) : HandsOn s (s.handUpdate n u b) :=
  (updateNotice_handsOn s n u b).trans (groupUpdate_handsOn _ n)

theorem stateChange_handsOn (s : State) (n : ChainNo) (x y : ChainState) (a : Option Field) :
    HandsOn s (s.stateChange n x y a) := by
  unfold State.stateChange
  split
  · exact .refl s
  · exact (entryNotice_cuesOnly ..).handsOn.trans (groupEntry_handsOn ..)

theorem enterFaulted_handsOn (s : State) (n : ChainNo) : HandsOn s (s.enterFaulted n) := by
  unfold State.enterFaulted
  exact ((raise_alarmsOnly ..).handsOn.trans (failFired_cuesOnly ..).handsOn).trans (groupTrouble_handsOn ..)

theorem handSettled_handsOn (s : State) (n : ChainNo) (f : Field) (x : ChainState) (y : Settled) :
    HandsOn s (s.handSettled n f x y) := by
  have h1 (u : State) : HandsOn u (if y.coasted then u.handUpdate n f false else u) := by
    split
    · exact handUpdate_handsOn ..
    · exact .refl u
  have h2 (u : State) : HandsOn u (if y.stale then
      (u.raise (srcChainSilent n) { chain := some n, field := u.fieldCount }).groupTrouble n .silent else u) := by
    split
    · exact (raise_alarmsOnly ..).handsOn.trans (groupTrouble_handsOn ..)
    · exact .refl u
  have h3 (u : State) : HandsOn u (if y.absent then (u.failFired n .chainLost).stateChange n x .absent none else u) := by
    split
    · exact (failFired_cuesOnly ..).handsOn.trans (stateChange_handsOn ..)
    · exact .refl u
  unfold State.handSettled
  exact ((h1 s).trans (h2 _)).trans (h3 _)

/-! ### Arrivals and settling: the one record written, and the frame -/

/-- Whatever follows from an arrival, the record of the chain is what R25 to R35 make it, and no other is touched. -/
theorem arrival_spec (s : State) (n : ChainNo) (v : Reported) :
    HandsOn (s.setChain n (arrivalRecord (s.chain n) v (s.cadenceMasked n v.frame))) (s.arrival n v) := by
  have h (u : State) (b : Bool) : HandsOn u (if b then u.enterFaulted n else u) := by
    split
    · exact enterFaulted_handsOn ..
    · exact .refl u
  unfold State.arrival
  exact (((withdraw_alarmsOnly ..).handsOn.trans (h _ _)).trans (handUpdate_handsOn ..)).trans (stateChange_handsOn ..)

/-- The settling of one chain writes its record alone (R36). -/
theorem settleOne_spec (s : State) (n : ChainNo) :
    HandsOn (s.setChain n (settleRecord (s.chain n)).record) (s.settleOne n) := by
  unfold State.settleOne
  exact handSettled_handsOn ..

/-- The settling at a field close makes every record what R36 to R39 say. -/
theorem settleChains_tracked (s : State) (f : Field) (n : ChainNo) :
    ((s.settleChains f).chain n).tracked = (settleRecord (s.chain n)).record.tracked := by
  have fold (u : State) (l : List ChainNo) :
      HandsOn u (l.foldl (fun t m => t.handSettled m f (s.chain m).state (settleRecord (s.chain m))) u) := by
    induction l generalizing u with
    | nil => exact .refl u
    | cons a l ih => exact (handSettled_handsOn ..).trans (ih _)
  refine ((fold (s.settleRecords f) allChains).2 n).trans ?_
  simp [State.chain, State.settleRecords]

theorem settleChains_trackingOnly (s : State) (f : Field) : TrackingOnly s (s.settleChains f) := by
  have fold (u : State) (l : List ChainNo) :
      HandsOn u (l.foldl (fun t m => t.handSettled m f (s.chain m).state (settleRecord (s.chain m))) u) := by
    induction l generalizing u with
    | nil => exact .refl u
    | cons a l ih => exact (handSettled_handsOn ..).trans (ih _)
  have h : TrackingOnly s (s.settleRecords f) := rfl
  exact h.trans (fold _ allChains).1

/-- What an accepted CLEAR FAULT writes (R31). -/
theorem clearFault_spec (s : State) (n : ChainNo) :
    ∃ r, HandsOn (s.setChain n r) (s.clearFault n)
      ∧ r.state = stateByMotor (s.chain n).reported (s.chain n).commanded.parkTarget ∧ r.faultCause = .none
      ∧ r.slipCount = 0 ∧ r.stale = (s.chain n).stale ∧ r.reported = (s.chain n).reported := by
  unfold State.clearFault
  refine ⟨_, stateChange_handsOn .., ?_⟩
  split <;> simp_all [ChainRecord.atSpeedUnchecked]

/-- Whatever follows from a disabling, the record is what R22 makes it, and no other is touched. -/
theorem disableChain_spec (s : State) (n : ChainNo) :
    HandsOn (s.setChain n { s.chain n with
      state := .absent, coasted := false, stale := false, coastCount := 0, missingCount := 0, slipCount := 0,
      faultCause := .none, heard := false }) (s.disableChain n) := by
  unfold State.disableChain
  exact ((withdraw_alarmsOnly ..).handsOn.trans (failFired_cuesOnly ..).handsOn).trans (stateChange_handsOn ..)

end Sys2Proof.Machine
end

