-- ==== Sys2Proof/Laws/Desk.lean ====
section
/-! SUPPORT. How a desk command is answered: the one place where the tests of R6, R188, R189 and R191 are unfolded. -/

namespace Sys2Proof.Machine

/-- What a ready desk handler finds: RST inactive, the window open, room for a reply (R188, R191). -/
theorem deskReady_elim {s : State} (h : s.deskReady = true) :
    s.rstActive = false ∧ s.windowOpen = true ∧ s.round.replies.length < 16 := by
  simp only [State.deskReady, State.inWindow, State.receiving, Bool.and_eq_true, Bool.not_eq_true', decide_eq_true_eq] at h
  exact ⟨h.1.1, h.1.2, h.2⟩

@[simp] theorem listening_round (s : State) : s.listening.round = s.round := rfl
@[simp] theorem listening_cues (s : State) : s.listening.cues = s.cues := rfl
@[simp] theorem listening_alarms (s : State) : s.listening.alarms = s.alarms := rfl
@[simp] theorem listening_snaps (s : State) : s.listening.snaps = s.snaps := rfl
@[simp] theorem listening_watches (s : State) : s.listening.watches = s.watches := rfl
@[simp] theorem listening_permits (s : State) : s.listening.permits = s.permits := rfl
@[simp] theorem listening_chain (s : State) (n : ChainNo) : s.listening.chain n = s.chain n := rfl
@[simp] theorem listening_group (s : State) (g : GroupId) : s.listening.group g = s.group g := by cases g <;> rfl
@[simp] theorem listening_fieldCount (s : State) : s.listening.fieldCount = s.fieldCount := rfl
@[simp] theorem listening_liveCue (s : State) (id : CueId) : s.listening.liveCue id = s.liveCue id := rfl

/-- A ready command is performed on the listening state (R188). -/
theorem deskCommand_ready {s : State} (h : s.deskReady = true) (sel : Byte) (p : List Byte) (work : Option Handler) :
    s.deskCommand sel p work = s.listening.performDesk sel p work := by
  obtain ⟨hr, hw, _⟩ := deskReady_elim h
  have hw' : (s.setAssembler .awaitAddress).windowOpen = true := hw
  simp [State.deskCommand, State.received, hr, hw', State.listening]

/-- A command whose work answers with one part is answered with one reply, numbered 1 and last (R190). -/
theorem performDesk_one {s t : State} (sel : Byte) (p : List Byte) (w : Handler) (key : Option (BitVec 16))
    (outcome : Option Reason) (d : List Byte) (hroom : s.round.replies.length < 16)
    (hw : w p s = some (t, .reply key outcome [d])) :
    s.performDesk sel p (some w)
      = t.queueReplies [{ selector := sel, key := key, outcome := outcome, field := s.fieldCount, data := d }] := by
  have h0 : s.replyRoom ≠ 0 := by simp only [State.replyRoom]; omega
  have h1 : ¬ s.replyRoom < 1 := by omega
  simp [State.performDesk, h0, h1, hw, State.queueAnswer, numberParts]

/-- The whole of one desk command that answers with one part and leaves the field count (R188 to R191). -/
theorem deskCommand_one {s t : State} (h : s.deskReady = true) (sel : Byte) (p : List Byte) (w : Handler)
    (key : Option (BitVec 16)) (outcome : Option Reason) (d : List Byte)
    (hw : w p s.listening = some (t, .reply key outcome [d])) (hf : t.fieldCount = s.fieldCount) :
    s.deskCommand sel p (some w) = t.answered sel key outcome d := by
  rw [deskCommand_ready h, performDesk_one (s := s.listening) sel p w key outcome d (deskReady_elim h).2.2 hw]
  simp [State.answered, hf]

/-- A refusal leaves everything but class 5 and the assembler (R190, R192). -/
theorem deskCommand_refused {s : State} (h : s.deskReady = true) (sel : Byte) (p : List Byte) (w : Handler)
    (key : Option (BitVec 16)) (r : Reason) (hw : w p s.listening = some (s.listening, refuse key r)) :
    s.deskCommand sel p (some w) = s.listening.answered sel key (some r) [] :=
  deskCommand_one h sel p w key (some r) [] hw rfl

/-- A telegram received in an open window with RST inactive is sorted (R6, R19). -/
theorem received_inWindow {s : State} (h : s.receiving = true) (act : State → State) : s.received act = act s.listening := by
  have : s.rstActive = false := by simpa [State.receiving] using h
  simp [State.received, this, State.listening]

/-- The frame of a reply: class 5 alone. -/
theorem answered_frame (s : State) (sel : Byte) (key : Option (BitVec 16)) (o : Option Reason) (d : List Byte) :
    s.answered sel key o d = { s with round := (s.answered sel key o d).round } := rfl

/-- An alarm frame carries over a reply queued after it. -/
theorem AlarmsOnly.answered {s t : State} (h : AlarmsOnly s t) (sel : Byte) (key : Option (BitVec 16)) (o : Option Reason)
    (d : List Byte) : AlarmsOnly (s.answered sel key o d) (t.answered sel key o d) := by
  obtain ⟨_, _, _, _, _, _, rfl⟩ := h.elim
  rfl

/-- A cue frame carries over a reply queued after it. -/
theorem CuesOnly.answered {s t : State} (h : CuesOnly s t) (sel : Byte) (key : Option (BitVec 16)) (o : Option Reason)
    (d : List Byte) : CuesOnly (s.answered sel key o d) (t.answered sel key o d) := by
  obtain ⟨_, _, _, _, _, _, _, _, _, _, _, _, _, _, hc, rfl⟩ := h.elim
  exact ⟨hc, rfl⟩

/-- A tracking frame carries over a reply queued after it. -/
theorem TrackingOnly.answered {s t : State} (h : TrackingOnly s t) (sel : Byte) (key : Option (BitVec 16))
    (o : Option Reason) (d : List Byte) : TrackingOnly (s.answered sel key o d) (t.answered sel key o d) := by
  obtain ⟨_, _, _, _, _, _, _, _, _, _, _, _, _, _, _, _, _, _, _, rfl⟩ := h.elim
  rfl

end Sys2Proof.Machine
end

