-- ==== Sys2Proof/WellFormed.lean ====
section
/-! DEFINITION. Which commands the outside can really send: operands in the ranges that the loop and the lines allow. -/

namespace Sys2Proof

/-- A telegram the assembler can hand on: its length byte is at most 24 (section 1.2, R5). -/
def Telegram.wf (t : Telegram) : Bool := decide (t.payload.length ≤ 24)

/-- The bytes after a selector fit a payload of at most 24 bytes (Table 12-1). -/
def paramsFit (params : List Byte) : Bool := decide (params.length ≤ 23)

/-- The selectors of Table 12-2. -/
def selectors : List Byte :=
  [0x01, 0x02, 0x03, 0x04, 0x05, 0x06, 0x07, 0x08, 0x10, 0x11, 0x12, 0x13, 0x14, 0x15, 0x16, 0x17, 0x18, 0x19, 0x1A,
   0x1B, 0x20, 0x21, 0x22, 0x30, 0x31, 0x32, 0x33, 0x34, 0x35, 0x36, 0x37, 0x38, 0x3E, 0x3F]

/-- A cue id that a cue can have (R60). -/
def CueId.wf (id : CueId) : Bool := decide (1 ≤ id.toNat ∧ id.toNat ≤ 999)

/-- A command that the outside can send. exec gives every command its meaning, well formed or not. -/
def Instr.wf : Instr → Bool
  | .powerUp | .rstAssert | .syncLoss | .loopLoss | .swapTaken | .periodicSnapshot | .rstRelease
  | .roundEndShiftedOut => true
  | .chainStale _ | .chainAbsent _ | .watchLimitReached _ | .fieldHeadReturn _ _ | .roundEndReturn _ _ _ => true
  | .fieldSyncArrival elapsed _ _ | .flywheelExpiry elapsed _ _ => decide (0 < elapsed)
  | .telegramFail chars => !chars.isEmpty
  | .ignoredTelegram t => t.wf
  | .ownTelegramReturn _ kind payload =>
      decide (payload.length ≤ 24) && kind != 0x01 && kind != 0x02
  | .chainReport unit _ payload =>
      decide (payload.length ≤ 24) && decide (1 ≤ unit.toNat ∧ unit.toNat ≤ 8)
  | .muxReport unit _ payload =>
      decide (payload.length ≤ 24) && (unit == 9 || unit == 10)
  | .confirmTimeout id | .withheldTooLong id | .followDue id => CueId.wf id
  | .unknownSelector selector params => paramsFit params && !selectors.contains selector
  | .loadCue p | .deleteCue p | .clearBank p | .swap p | .cancelSwap p | .abandon p | .take p | .allStop p
  | .setChain p | .setGroup p | .clearFault p | .setPermit p | .setWindow p | .clearWindow p | .setWatch p
  | .setAlarm p | .setAlmThreshold p | .setSnapshot p | .setRehearse p | .setWithholdLimit p | .acknowledge p
  | .snap p | .readSnapshots p | .readStatus p | .readChain p | .readGroup p | .readCue p | .readBank p
  | .readWatch p | .readPermit p | .readWindow p | .readAlarms p | .clear p | .resetController p => paramsFit p

end Sys2Proof
end

