-- ==== Sys2Proof/Laws/PerInstr.lean ====
section
/-! SUPPORT. A statement made of each command in turn: a well-formed command fits one telegram of the loop. -/

namespace Sys2Proof.Laws.Operands

/-- The payload bytes of the telegram a command stands for: a report's or an own telegram's payload, a desk command's selector
and parameters (Table 12-1); 0 for a command that is no telegram, the layout of FIELD HEAD and ROUND END being fixed. -/
def carried : Instr → Nat
  | .powerUp | .rstAssert | .rstRelease | .syncLoss | .loopLoss | .swapTaken | .periodicSnapshot | .roundEndShiftedOut => 0
  | .fieldSyncArrival _ _ _ | .flywheelExpiry _ _ _ | .telegramFail _ => 0
  | .chainStale _ | .chainAbsent _ | .watchLimitReached _ | .confirmTimeout _ | .withheldTooLong _ | .followDue _ => 0
  | .fieldHeadReturn _ _ => 3
  | .roundEndReturn _ _ _ => 2
  | .ignoredTelegram t => t.payload.length
  | .ownTelegramReturn _ _ payload => payload.length
  | .chainReport _ _ payload => payload.length
  | .muxReport _ _ payload => payload.length
  | .unknownSelector _ params => 1 + params.length
  | .loadCue p | .deleteCue p | .clearBank p | .swap p | .cancelSwap p | .abandon p | .take p | .allStop p
  | .setChain p | .setGroup p | .clearFault p | .setPermit p | .setWindow p | .clearWindow p | .setWatch p
  | .setAlarm p | .setAlmThreshold p | .setSnapshot p | .setRehearse p | .setWithholdLimit p | .acknowledge p
  | .snap p | .readSnapshots p | .readStatus p | .readChain p | .readGroup p | .readCue p | .readBank p
  | .readWatch p | .readPermit p | .readWindow p | .readAlarms p | .clear p | .resetController p => 1 + p.length

/-- A well-formed command carries at most the 24 bytes of a payload (section 1.2). -/
def Statement (i : Instr) : Prop := i.wf = true → carried i ≤ 24

theorem params_fit (p : List Byte) (h : paramsFit p = true) : 1 + p.length ≤ 24 := by
  have := of_decide_eq_true h
  omega

theorem left_of_and {a b : Bool} (h : (a && b) = true) : a = true := (Bool.and_eq_true_iff.mp h).1

theorem powerUp : Statement .powerUp := fun _ => Nat.zero_le 24
theorem rstAssert : Statement .rstAssert := fun _ => Nat.zero_le 24
theorem fieldSyncArrival (elapsed : Nat) (take : Contact) (hold : Contact) : Statement (.fieldSyncArrival elapsed take hold) :=
  fun _ => Nat.zero_le 24
theorem flywheelExpiry (elapsed : Nat) (take : Contact) (hold : Contact) : Statement (.flywheelExpiry elapsed take hold) :=
  fun _ => Nat.zero_le 24
theorem syncLoss : Statement .syncLoss := fun _ => Nat.zero_le 24
theorem telegramFail (chars : List RxChar) : Statement (.telegramFail chars) := fun _ => Nat.zero_le 24
theorem ignoredTelegram (telegram : Telegram) : Statement (.ignoredTelegram telegram) := fun h => of_decide_eq_true h
theorem fieldHeadReturn (field : Field) (flags : Byte) : Statement (.fieldHeadReturn field flags) :=
  fun _ => Nat.le_of_ble_eq_true rfl
theorem roundEndReturn (field : Field) (take : Contact) (hold : Contact) : Statement (.roundEndReturn field take hold) :=
  fun _ => Nat.le_of_ble_eq_true rfl
theorem loopLoss : Statement .loopLoss := fun _ => Nat.zero_le 24
theorem ownTelegramReturn (dest : Station) (kind : Byte) (payload : List Byte) : Statement (.ownTelegramReturn dest kind payload) :=
  fun h => of_decide_eq_true (left_of_and (left_of_and h))
theorem chainReport (unit : Station) (dest : Station) (payload : List Byte) : Statement (.chainReport unit dest payload) :=
  fun h => of_decide_eq_true (left_of_and h)
theorem swapTaken : Statement .swapTaken := fun _ => Nat.zero_le 24
theorem muxReport (unit : Station) (dest : Station) (payload : List Byte) : Statement (.muxReport unit dest payload) :=
  fun h => of_decide_eq_true (left_of_and h)
theorem chainStale (chain : ChainNo) : Statement (.chainStale chain) := fun _ => Nat.zero_le 24
theorem chainAbsent (chain : ChainNo) : Statement (.chainAbsent chain) := fun _ => Nat.zero_le 24
theorem confirmTimeout (id : CueId) : Statement (.confirmTimeout id) := fun _ => Nat.zero_le 24
theorem withheldTooLong (id : CueId) : Statement (.withheldTooLong id) := fun _ => Nat.zero_le 24
theorem followDue (id : CueId) : Statement (.followDue id) := fun _ => Nat.zero_le 24
theorem watchLimitReached (watch : WatchNo) : Statement (.watchLimitReached watch) := fun _ => Nat.zero_le 24
theorem periodicSnapshot : Statement .periodicSnapshot := fun _ => Nat.zero_le 24
theorem loadCue (params : List Byte) : Statement (.loadCue params) := fun h => params_fit params h
theorem deleteCue (params : List Byte) : Statement (.deleteCue params) := fun h => params_fit params h
theorem clearBank (params : List Byte) : Statement (.clearBank params) := fun h => params_fit params h
theorem swap (params : List Byte) : Statement (.swap params) := fun h => params_fit params h
theorem cancelSwap (params : List Byte) : Statement (.cancelSwap params) := fun h => params_fit params h
theorem abandon (params : List Byte) : Statement (.abandon params) := fun h => params_fit params h
theorem take (params : List Byte) : Statement (.take params) := fun h => params_fit params h
theorem allStop (params : List Byte) : Statement (.allStop params) := fun h => params_fit params h
theorem setChain (params : List Byte) : Statement (.setChain params) := fun h => params_fit params h
theorem setGroup (params : List Byte) : Statement (.setGroup params) := fun h => params_fit params h
theorem clearFault (params : List Byte) : Statement (.clearFault params) := fun h => params_fit params h
theorem setPermit (params : List Byte) : Statement (.setPermit params) := fun h => params_fit params h
theorem setWindow (params : List Byte) : Statement (.setWindow params) := fun h => params_fit params h
theorem clearWindow (params : List Byte) : Statement (.clearWindow params) := fun h => params_fit params h
theorem setWatch (params : List Byte) : Statement (.setWatch params) := fun h => params_fit params h
theorem setAlarm (params : List Byte) : Statement (.setAlarm params) := fun h => params_fit params h
theorem setAlmThreshold (params : List Byte) : Statement (.setAlmThreshold params) := fun h => params_fit params h
theorem setSnapshot (params : List Byte) : Statement (.setSnapshot params) := fun h => params_fit params h
theorem setRehearse (params : List Byte) : Statement (.setRehearse params) := fun h => params_fit params h
theorem setWithholdLimit (params : List Byte) : Statement (.setWithholdLimit params) := fun h => params_fit params h
theorem acknowledge (params : List Byte) : Statement (.acknowledge params) := fun h => params_fit params h
theorem snap (params : List Byte) : Statement (.snap params) := fun h => params_fit params h
theorem readSnapshots (params : List Byte) : Statement (.readSnapshots params) := fun h => params_fit params h
theorem readStatus (params : List Byte) : Statement (.readStatus params) := fun h => params_fit params h
theorem readChain (params : List Byte) : Statement (.readChain params) := fun h => params_fit params h
theorem readGroup (params : List Byte) : Statement (.readGroup params) := fun h => params_fit params h
theorem readCue (params : List Byte) : Statement (.readCue params) := fun h => params_fit params h
theorem readBank (params : List Byte) : Statement (.readBank params) := fun h => params_fit params h
theorem readWatch (params : List Byte) : Statement (.readWatch params) := fun h => params_fit params h
theorem readPermit (params : List Byte) : Statement (.readPermit params) := fun h => params_fit params h
theorem readWindow (params : List Byte) : Statement (.readWindow params) := fun h => params_fit params h
theorem readAlarms (params : List Byte) : Statement (.readAlarms params) := fun h => params_fit params h
theorem clear (params : List Byte) : Statement (.clear params) := fun h => params_fit params h
theorem resetController (params : List Byte) : Statement (.resetController params) := fun h => params_fit params h
theorem unknownSelector (selector : Byte) (params : List Byte) : Statement (.unknownSelector selector params) :=
  fun h => params_fit params (left_of_and h)
theorem rstRelease : Statement .rstRelease := fun _ => Nat.zero_le 24
theorem roundEndShiftedOut : Statement .roundEndShiftedOut := fun _ => Nat.zero_le 24

end Sys2Proof.Laws.Operands
end

