-- ==== Sys2Proof/Tests/Slice0.lean ====
section
/-! SUPPORT. Tests of the model against the data book's worked examples, the well-formedness smoke tests, and a witness for the
hypotheses of every statement that has some. -/

set_option Elab.async false

namespace Sys2Proof.Tests

open Sys2Proof Sys2Proof.Machine

/-! ### Helpers -/

/-- A controller after reset with the return window of a round open at field f. -/
def openAt (f : Field) : State :=
  { State.reset with port := { assembler := .awaitAddress }, round := { phase := .windowOpen, fieldCount := f } }

/-- The state after one step that carries the command out. -/
def after (c : Instr) (s : State) : State :=
  match step { s with pending := [c] } with
  | .next t => t
  | .fault _ => s
  | .refused _ => s

/-- The state with one chain's record replaced. -/
def withChain (s : State) (n : ChainNo) (r : ChainRecord) : State := s.setChain n r

/-- The state with the given LIVE and PRESET banks. -/
def withBanks (s : State) (live preset : List Cue) : State := { s with cues := { s.cues with live := live, preset := preset } }

/-- A cue with the given loaded fields in the given state. -/
def cueIn (st : CueState) (f : CueFields) : Cue := { fields := f, runtime := { state := st } }

/-- The outcome of the last reply that waits. -/
def lastOutcome (s : State) : Option (Option Reason) := s.round.replies.getLast?.map Reply.outcome

/-- The in-service list, top first, as sources and levels. -/
def inServiceOf (s : State) : List (Nat × Nat) := s.alarms.inService.map (fun e => (e.source.val, e.level.val))

/-- The pending sources. -/
def pendingOf (s : State) : List Nat := (allSources.filter s.alarms.isPending).map Fin.val

/-- The states of the LIVE cues. -/
def liveStates (s : State) : List CueState := s.cues.live.map (fun c => c.runtime.state)

/-! ### Well-formedness: one ill-formed term for each check -/

theorem test_wf_sync_elapsed_zero : (Instr.fieldSyncArrival 0 .opened .opened).wf = false := by decide
theorem test_wf_expiry_elapsed_zero : (Instr.flywheelExpiry 0 .opened .opened).wf = false := by decide
theorem test_wf_fail_without_characters : (Instr.telegramFail []).wf = false := by decide
theorem test_wf_ignored_payload_too_long :
    (Instr.ignoredTelegram { dest := 0, src := 11, kind := 0x10, payload := List.replicate 25 0 }).wf = false := by decide
theorem test_wf_own_field_head : (Instr.ownTelegramReturn 15 0x01 []).wf = false := by decide
theorem test_wf_own_round_end : (Instr.ownTelegramReturn 15 0x02 []).wf = false := by decide
theorem test_wf_own_payload_too_long : (Instr.ownTelegramReturn 1 0x41 (List.replicate 25 0)).wf = false := by decide
theorem test_wf_report_unit_zero : (Instr.chainReport 0 0 [0, 0, 0, 0]).wf = false := by decide
theorem test_wf_report_unit_nine : (Instr.chainReport 9 0 [0, 0, 0, 0]).wf = false := by decide
theorem test_wf_report_payload_too_long : (Instr.chainReport 1 0 (List.replicate 25 0)).wf = false := by decide
theorem test_wf_mux_unit_eight : (Instr.muxReport 8 0 [0, 0]).wf = false := by decide
theorem test_wf_mux_payload_too_long : (Instr.muxReport 9 0 (List.replicate 25 0)).wf = false := by decide
theorem test_wf_cue_id_zero : (Instr.confirmTimeout 0).wf = false := by decide
theorem test_wf_cue_id_thousand : (Instr.followDue 1000).wf = false := by decide
theorem test_wf_unknown_known_selector : (Instr.unknownSelector 0x3E []).wf = false := by decide
theorem test_wf_unknown_parameters_too_long : (Instr.unknownSelector 0x40 (List.replicate 24 0)).wf = false := by decide
theorem test_wf_desk_parameters_too_long : (Instr.loadCue (List.replicate 24 0)).wf = false := by decide
theorem test_wf_desk_parameters_full : (Instr.loadCue (List.replicate 23 0)).wf = true := by decide

/-! ### Telegrams (sections 12.1 and 12.2, from the byte layouts) -/

/-- ALL STOP: 0xF0, 0x4F, length 0, and the exclusive-or of the three (R204). -/
theorem test_bytes_all_stop : telegramBytes allStopTelegram = [0xF0, 0x4F, 0x00, 0xBF] := by decide

/-- FIELD HEAD 0x0136 with ALM and swap pending: flags 0b110 (section 12.2). -/
theorem test_bytes_field_head :
    telegramBytes (fieldHeadTelegram 0x0136 false true true) = [0xF0, 0x01, 0x03, 0x36, 0x01, 0x06, 0xC3] := by decide

/-- A CHAIN REPORT of frame 1201, phase 2, at speed, lamp up, dowser open (section 12.2). -/
theorem test_decode_chain_report :
    validChainReport .twoThree [0xB1, 0x04, 0x0A, 0x05]
      = some { frame := 1201, phase := 2, motor := .atSpeed, lamp := .up, dowser := true } := by decide

/-- Phase 2 of an even frame is malformed under 2:3, and every frame's under 2:2 (R24). -/
theorem test_decode_bad_phase :
    validChainReport .twoThree [0xB2, 0x04, 0x0A, 0x05] = none
      ∧ validChainReport .twoTwo [0xB1, 0x04, 0x0A, 0x05] = none := by decide

/-- The table gives no row any bits, so no word spells a command (log 35). -/
theorem test_no_word_spells_a_command : decodeTableWord 8 0 = none := by decide

/-! ### Field arithmetic (the table of R33; Table 3-1) -/

theorem test_successor_table :
    successor .twoTwo 500 0 = (500, 1) ∧ successor .twoTwo 500 1 = (501, 0) ∧ successor .twoThree 501 1 = (501, 2)
      ∧ successor .twoThree 501 2 = (502, 0) ∧ successor .twoThree 502 1 = (503, 0)
      ∧ successor .twoThree 65535 2 = (0, 0) := by decide

theorem test_fields_to_frame_table :
    fieldsToFrame .twoTwo 100 1 110 = 19 ∧ fieldsToFrame .twoTwo 100 0 100 = 0 ∧ fieldsToFrame .twoTwo 100 1 99 = -3
      ∧ fieldsToFrame .twoThree 43136 1 43200 = 159 ∧ fieldsToFrame .twoThree 43137 0 43200 = 158
      ∧ fieldsToFrame .twoThree 43199 1 43200 = 2 ∧ fieldsToFrame .twoThree 43201 1 43200 = -3 := by decide

/-- The extremes that R47 names. -/
theorem test_fields_to_frame_extremes :
    fieldsToFrame .twoThree 0 0 65535 = 163837 ∧ fieldsToFrame .twoThree 65535 2 0 = -163839 := by decide

/-! ### The cadence check and the coast (Chapter 2, the running chain that loses reports and slips) -/

/-- Chain 4 of the worked sequence at a position, with the slip count given. -/
def running (frame : Frame) (phase : BitVec 2) (slip : Nat) : ChainRecord :=
  { config := { cadence := .twoThree }, reported := { frame := frame, phase := phase, motor := .atSpeed }, slipCount := slip,
    state := .atSpeed }

/-- The report of an at-speed chain at a position. -/
def atSpeedAt (frame : Frame) (phase : BitVec 2) : Reported := { frame := frame, phase := phase, motor := .atSpeed }

/-- Fields 502 and 503: two coast steps, 1202/0 and 1202/1. -/
theorem test_coast_steps :
    let r := (settleRecord (running 1201 2 0)).record
    let q := (settleRecord r).record
    (r.reported.frame, r.reported.phase, r.coastCount, r.missingCount) = (1202, 0, 1, 1)
      ∧ (q.reported.frame, q.reported.phase, q.coastCount, q.missingCount) = (1202, 1, 2, 2) := by decide

/-- Field 504: the third missing field does not advance the position and makes the chain stale. -/
theorem test_third_missing_field :
    let x := settleRecord { running 1202 1 0 with coasted := true, coastCount := 2, missingCount := 2 }
    x.stale = true ∧ x.coasted = false
      ∧ (x.record.reported.frame, x.record.reported.phase, x.record.coastCount, x.record.missingCount) = (1202, 1, 2, 3) := by
  decide

/-- Fields 507 to 510: a slip, a match that clears it, a slip, and a second slip that faults the chain. -/
theorem test_cadence_check :
    (arrivalRecord (running 1203 2 0) (atSpeedAt 1204 1) false).slipCount = 1
      ∧ (arrivalRecord (running 1204 1 1) (atSpeedAt 1205 0) false).slipCount = 0
      ∧ (arrivalRecord (running 1205 2 1) (atSpeedAt 1206 1) false).state = .faulted
      ∧ (arrivalRecord (running 1205 2 1) (atSpeedAt 1206 1) false).faultCause = .cadence
      ∧ (arrivalRecord (running 1205 2 1) (atSpeedAt 1206 1) true).slipCount = 1 := by decide

/-! ### The round master (sections 1.4 to 1.7) -/

theorem test_power_up_resets : after .powerUp (openAt 9) = State.reset := by decide +kernel

theorem test_rst_assert_holds :
    (after .rstAssert (openAt 9)).rstActive = true ∧ (after .rstAssert (openAt 9)).round.phase = .noRound := by decide +kernel

theorem test_rst_release :
    (after .rstRelease { openAt 9 with pins := { rst := false } }).rstActive = false := by decide +kernel

/-- A first sync takes UNLOCKED to LEARNING and launches round 1 (R7, R10). -/
theorem test_first_sync_launches :
    let t := after (.fieldSyncArrival 5 .opened .opened) State.reset
    (t.round.sync, t.round.fieldCount, t.round.phase, t.round.reference) = (.learning, 1, .awaited, some 5) := by decide +kernel

/-- A locked round master that launched at 1000 with interval 1000. -/
def lockedState : State :=
  { openAt 10 with round := { (openAt 10).round with
      sync := .locked, keptInterval := some 1000, lastLaunch := some 1000, reference := some 1000 }, now := 1000 }

/-- LOCKED ignores a sync before three-quarters of the interval and takes one at exactly that (R7). -/
theorem test_early_sync_ignored :
    (after (.fieldSyncArrival 749 .opened .opened) lockedState).round.fieldCount = 10
      ∧ (after (.fieldSyncArrival 750 .opened .opened) lockedState).round.keptInterval = some 750 := by decide +kernel

/-- The flywheel expires one and a quarter intervals after the launch and the second in a row counts 2 (R8). -/
theorem test_flywheel_expiry :
    let t := after (.flywheelExpiry 5000 .opened .opened) lockedState
    (t.now, t.round.flywheel, t.round.reference, t.round.fieldCount) = (2250, 1, none, 11) := by decide +kernel

theorem test_sync_loss :
    let t := after .syncLoss { lockedState with round := { lockedState.round with flywheel := 2 } }
    t.round.sync = .lost ∧ pendingOf t = [2] := by decide +kernel

theorem test_loop_loss :
    pendingOf (after .loopLoss { openAt 10 with round := { (openAt 10).round with broken := 2 } }) = [1] := by decide +kernel

/-- An action set of so many characters in telegrams of six. -/
def setOf (id : CueId) (telegrams : Nat) : ActionSet :=
  { cue := id, telegrams := List.replicate telegrams (cueAction 0 kindStop id) }

/-- The queue of the worked example of a full round. -/
def fullQueue : State :=
  { openAt 309 with round := { (openAt 309).round with
      phase := .complete
      sets := [setOf 12 3, setOf 15 3, setOf 16 3, setOf 17 3, setOf 18 3, setOf 20 2, setOf 31 3]
      replies := [{ selector := 0x21, field := 0 }, { selector := 0x30, field := 0, data := List.replicate 8 0 }] } }

/-- Round 310 carries 127 characters; cue 31's set and the second reply wait (section 1.5, worked example). -/
theorem test_full_round :
    (fullQueue.roundTelegrams.map telegramChars).sum = 127
      ∧ fullQueue.fix.waiting.map ActionSet.cue = [31] ∧ fullQueue.fix.replies.length = 1 := by decide +kernel

/-- A round of one character leaves the shifter in eleven bits of sixteen samples (R1, R2). -/
theorem test_round_shifted_out :
    let t := after .roundEndShiftedOut
      { State.reset with port := { shifter := { rounds := [[0x55]], position := 16 } } }
    t.now = 160 ∧ t.port.shifter.rounds = [] := by decide +kernel

/-- A bad length byte sends the assembler to HUNT (R5). -/
theorem test_telegram_fail_hunts :
    (after (.telegramFail [⟨0, 0x01, false⟩, ⟨0, 0x10, false⟩, ⟨0, 25, false⟩]) (openAt 9)).port.assembler = .hunt := by
  decide +kernel

theorem test_ignored_second_report :
    let s := { openAt 9 with round := { (openAt 9).round with reported := [1] } }
    after (.ignoredTelegram { dest := 0, src := 1, kind := 0x10, payload := [1, 0, 0, 0] }) s = s := by decide +kernel

theorem test_field_head_opens :
    (after (.fieldHeadReturn 10 0) { lockedState with round := { lockedState.round with phase := .awaited } }).round.phase
      = .windowOpen := by decide +kernel

theorem test_round_end_of_another_field :
    (after (.roundEndReturn 11 .opened .opened) lockedState).round.phase = .windowOpen
      ∧ (after (.roundEndReturn 10 .opened .opened) lockedState).round.phase = .complete := by decide +kernel

/-! ### Returned actions, reports, cues (Chapters 3 to 5) -/

/-- A RUN of cue 11 placed in the round, the cue FIRED. -/
def placedRun : State :=
  let s := withBanks (openAt 1062) [cueIn .fired { id := 11, chain := 1, kind := .start, release := .auto }] []
  { s with round := { s.round with placed := [{ telegram := cueAction 1 kindRun 11, cue := 11 }] } }

theorem test_own_return_fails_cue :
    let t := after (.ownTelegramReturn 2 kindRun [11, 0]) placedRun
    t.fateOf 11 = some (.failed, .undelivered) ∧ pendingOf t = [5, 8] := by decide +kernel

/-- The reel-end case in field 1059: chain 1 on air near frame 43200, chain 2 CUED with R = 96 and lamp lead 60 (section 3.6). -/
def reelEnd (frame : Frame) (phase : BitVec 2) (f : Field) : State :=
  let s := withBanks (openAt f)
    [ cueIn .done { id := 10, chain := 1, kind := .park, frame := 1962, release := .auto },
      { fields := { id := 11, chain := 1, kind := .start, reference := some 0, frame := 43200, release := .auto },
        runtime := { state := .armed, lampSent := true } },
      cueIn .waiting { id := 12, chain := 1, kind := .changeover, reference := some 0, frame := 43200, release := .auto } ] []
  withChain (withChain s 0 (running frame phase 0)) 1
    { config := { runUp := 96, lampLead := 60 }, reported := { frame := 1962 }, state := .cued }

/-- Field 1060: the START fires on 43161/0, RUN is queued, E = 1158, the CHANGEOVER arms (section 3.6). -/
theorem test_report_fires_start :
    let t := after (.chainReport 1 0 [0x99, 0xA8, 0x08, 0x01]) (reelEnd 43160 1 1060)
    liveStates t = [.done, .fired, .armed] ∧ (t.chain 1).commanded.motion = .run 1158
      ∧ (t.liveCue 11).map (fun c => (c.runtime.dueField, c.runtime.shortfall, c.runtime.effectField))
        = some (some 1060, 0, some 1062)
      ∧ t.round.sets = [{ cue := 11, telegrams := [cueAction 1 kindRun 11] }] := by decide +kernel

/-- Field 1059: on 43160/1 the START is not due (section 3.6). -/
theorem test_report_one_field_before :
    liveStates (after (.chainReport 1 0 [0x98, 0xA8, 0x09, 0x01]) (reelEnd 43160 0 1059)) = [.done, .armed, .waiting] := by
  decide +kernel

/-- A CHANGEOVER for a frame already passed: due field 2395, shortfall 5, or MISSED under a late limit of 4 (section 3.6). -/
def passedFrame (limit : Nat) : State :=
  let s := withBanks (openAt 2400)
    [ cueIn .armed { id := 12, chain := 1, kind := .changeover, reference := some 0, frame := 43200, release := .auto } ] []
  let s1 := withChain (withChain s 0 (running 43201 0 0)) 1 { reported := { motor := .atSpeed }, state := .atSpeed }
  { s1 with groupA := { map := ⟨#[some 0, some 1, none, none], rfl⟩ }, cues := { s1.cues with limit := limit } }

theorem test_late_changeover :
    let t := after (.chainReport 1 0 [0xC1, 0xA8, 0x09, 0x01]) (passedFrame 50)
    (t.liveCue 12).map (fun c => (c.runtime.state, c.runtime.dueField, c.runtime.shortfall, c.runtime.late))
        = some (.fired, some 2395, 5, true)
      ∧ 7 ∈ pendingOf t := by decide +kernel

theorem test_missed_changeover :
    (after (.chainReport 1 0 [0xC1, 0xA8, 0x09, 0x01]) (passedFrame 4)).fateOf 12 = some (.failed, .missed) := by
  decide +kernel

/-- Chains 1 and 2 both coast at the close of 701: the cue that arms behind the MARK due on chain 1 is evaluated on chain 2's
position of 701, one field before its frame, and waits (R45, R50). -/
theorem test_coasted_reference_is_of_this_field :
    let s0 := withBanks (openAt 701)
      [ cueIn .armed { id := 5, chain := 0, kind := .mark, frame := 20, release := .auto },
        cueIn .waiting { id := 6, chain := 0, kind := .mark, reference := some 1, frame := 31, release := .auto } ] []
    let s := { withChain (withChain s0 0 { running 19 1 0 with config := {} }) 1 { running 30 0 0 with config := {} } with
      cues := { s0.cues with updateField := Vector.replicate 8 (some 700) } }
    liveStates (s.settleChains 701) = [.done, .armed]
      ∧ liveStates ({ s.settleChains 701 with round := { phase := .windowOpen, fieldCount := 702 } }.settleChains 702)
        = [.done, .done] := by decide +kernel

theorem test_mux_report_air_holder :
    let s := { withChain (openAt 5) 2 { reported := {}, state := .idle } with
      groupB := { map := ⟨#[none, some 2, none, none], rfl⟩ } }
    (after (.muxReport 10 0 [2, 0]) s).groupB.holder = some 2
      ∧ (after (.muxReport 10 0 [1, 0]) s).groupB.holder = none := by decide +kernel

theorem test_chain_stale :
    pendingOf (after (.chainStale 3) (withChain (openAt 504) 3
      { running 1202 1 0 with coasted := true, coastCount := 2, missingCount := 2 })) = [21] := by decide +kernel

theorem test_chain_absent :
    ((after (.chainAbsent 3) (withChain (openAt 530) 3 { running 1202 1 0 with stale := true, missingCount := 24 })).chain
      3).state = .absent := by decide +kernel

/-- A SHUTTER's confirm limit is 3 (R92). -/
theorem test_confirm_timeout :
    (after (.confirmTimeout 7) (withBanks (openAt 50)
      [ { fields := { id := 7, chain := 0, kind := .shutter, release := .auto, sense := some .opening },
          runtime := { state := .fired, effectField := some 48, confirmCount := 2 } } ] [])).fateOf 7
      = some (.failed, .confirmTimeout) := by decide +kernel

theorem test_withheld_too_long :
    (after (.withheldTooLong 7) (withBanks (openAt 50)
      [ { fields := { id := 7, chain := 0, kind := .park, release := .gated },
          runtime := { state := .withheld, withholdCount := 49 } } ] [])).fateOf 7
      = some (.failed, .withheldTooLong) := by decide +kernel

/-- Cue 13 follows cue 12 by 50 fields and is due in field 1206 (section 3.6). -/
theorem test_follow_due :
    let s := withBanks (openAt 1206)
      [ { fields := { id := 12, chain := 1, kind := .mark, release := .auto },
          runtime := { state := .done, firedField := some 1156 } },
        cueIn .armed { id := 13, chain := 0, kind := .mark, release := .follow, follow := some 12, offset := 50 } ] []
    let t := after (.followDue 13) s
    (t.liveCue 13).map (fun c => (c.runtime.state, c.runtime.dueField, c.runtime.shortfall)) = some (.done, some 1206, 0) := by
  decide +kernel

/-- A follower with offset 0 that arms as the cue it follows fires at its own examination is due at that same close (R56, R74). -/
theorem test_follower_behind_follower :
    let s := withBanks (openAt 1156)
      [ { fields := { id := 12, chain := 1, kind := .mark, release := .auto },
          runtime := { state := .done, firedField := some 1156 } },
        cueIn .armed { id := 13, chain := 0, kind := .mark, release := .follow, follow := some 12 },
        cueIn .waiting { id := 14, chain := 0, kind := .mark, release := .follow, follow := some 13 } ] []
    (liveStates (s.cueWork 1156 []), ((s.cueWork 1156 []).liveCue 14).map (fun c => c.runtime.dueField))
      = ([.done, .done, .done], some (some 1156)) := by decide +kernel

/-! ### Watches (Chapter 8, counting lost reports) and alarms (Chapter 9, nesting) -/

/-- Watch 9 of the worked sequence: the third loss brings the count to 0 with the output true, and the next sample ends it. -/
theorem test_count_watch :
    let w : Watch := { enabled := true, mode := .count, edge := .rise, limit := 3, count := 2, previous := some false }
    (modeStep w true).count = 0 ∧ (modeStep w true).output = true
      ∧ (modeStep { w with count := 0, output := true, previous := some true } false).output = false := by decide

/-- A GAP watch with limit 5 and count 4 rises at a sample without a selected edge (field close 107 of the worked sequence). -/
theorem test_watch_limit_reached :
    let s := { withChain (openAt 107) 1 (running 700 1 0) with
      watches := { watches := Vector.replicate 16 { enabled := true, chain := 1, signal := .frameAdvance, mode := .gap, limit := 5,
                                                    count := 4, previous := some false },
                   seen := Vector.replicate 8 (some 700) } }
    let t := after (.watchLimitReached 4) s
    t.watches.watches[4].output = true ∧ t.watches.watches[4].count = 5 ∧ pendingOf t = [30] := by decide +kernel

/-- The settings of the nesting sequence, with sources pending and entries as given. -/
def nesting (pend : List Source) (entries : List (Source × Level)) : State :=
  let unmasked (lv : Level) : Setting := { level := lv, masked := false }
  let d : Detail := { field := 500 }
  { openAt 506 with alarms := {
      settings := ((((Vector.replicate 42 {}).set 3 (unmasked 1)).set 7 (unmasked 6)).set 20 (unmasked 4)).set 30 (unmasked 4)
      pending := pend.foldl (fun v (x : Source) => v.set x (some { detail := d })) (Vector.replicate 42 none)
      inService := entries.map (fun e => { source := e.1, level := e.2, again := false, detail := d })
      threshold := 4, alm := true } }

/-- Field 506: ACKNOWLEDGE 7 is NOT TOP; ACKNOWLEDGE 20 lets WATCH 5 enter, and CUE LATE stays pending. -/
theorem test_acknowledge_nesting :
    lastOutcome (after (.acknowledge [7]) (nesting [30, 7] [(20, 4), (7, 6)])) = some (some .notTop)
      ∧ inServiceOf (after (.acknowledge [20]) (nesting [30, 7] [(20, 4), (7, 6)])) = [(30, 4), (7, 6)]
      ∧ pendingOf (after (.acknowledge [20]) (nesting [30, 7] [(20, 4), (7, 6)])) = [7] := by decide +kernel

/-- Field 515: acknowledging 30 leaves 7/6 alone, less urgent than the threshold, and ALM goes inactive. -/
theorem test_acknowledge_releases_line :
    (after (.acknowledge [30]) (nesting [7] [(30, 4), (7, 6)])).alarms.alm = false := by decide +kernel

/-! ### Desk commands -/

/-- LOAD CUE of a FOLLOW cue whose offset is clamped to 250 (R60). -/
theorem test_load_cue_clamps :
    let s := withBanks (openAt 9) [] [cueIn .waiting { id := 12, chain := 0, kind := .mark, release := .auto }]
    let t := after (.loadCue [2, 13, 0, 1, 6, 0xFF, 0, 0, 0x2C, 0x01, 4, 12, 0, 0xFF, 0, 0, 0, 0]) s
    t.cues.preset.map (fun c => (c.fields.id, c.fields.offset, c.fields.follow)) = [(12, 0, none), (13, 250, some 12)] := by
  decide +kernel

theorem test_delete_followed_cue :
    let s := withBanks (openAt 9) []
      [cueIn .waiting { id := 12, chain := 0, kind := .mark, release := .auto },
       cueIn .waiting { id := 13, chain := 0, kind := .mark, release := .follow, follow := some 12 }]
    lastOutcome (after (.deleteCue [2, 12, 0]) s) = some (some .badReference)
      ∧ (after (.deleteCue [2, 13, 0]) s).cues.preset.length = 1 := by decide +kernel

theorem test_clear_bank :
    (after (.clearBank [2]) (withBanks (openAt 9) []
      [cueIn .waiting { id := 12, chain := 0, kind := .mark, release := .auto }])).cues.preset = []
      ∧ lastOutcome (after (.clearBank [1]) (openAt 9)) = some (some .live) := by decide +kernel

theorem test_swap_taken_at_once :
    liveStates (after (.swap []) (withBanks (openAt 9) []
      [cueIn .waiting { id := 12, chain := 0, kind := .mark, release := .take }])) = [.armed] := by decide +kernel

/-- A bank with a FIRED cue. -/
def firedBank : State := withBanks (openAt 9) [cueIn .fired { id := 3, chain := 0, kind := .stop, release := .auto }] []

theorem test_swap_set_pending : (after (.swap []) firedBank).cues.swapPending = true := by decide +kernel

theorem test_swap_taken :
    (after .swapTaken { openAt 9 with cues := { swapPending := true } }).cues.swapPending = false
      ∧ (after .swapTaken { firedBank with cues := { firedBank.cues with swapPending := true } }).cues.swapPending = true := by
  decide +kernel

theorem test_cancel_swap :
    (after (.cancelSwap []) { firedBank with cues := { firedBank.cues with swapPending := true } }).cues.swapPending = false := by
  decide +kernel

theorem test_abandon : liveStates (after (.abandon [3, 0]) firedBank) = [.abandoned] := by decide +kernel

theorem test_take_fires_mark :
    let s := withBanks (openAt 9) [cueIn .armed { id := 3, chain := 0, kind := .mark, release := .take }] []
    liveStates (after (.take []) s) = [.done]
      ∧ (after (.take []) s).round.replies.map Reply.key = [some 3] := by decide +kernel

theorem test_all_stop :
    let t := after (.allStop []) firedBank
    t.round.allStop = true ∧ liveStates t = [.abandoned] ∧ (t.chain 7).commanded.motion = .stop := by decide +kernel

theorem test_set_chain_clamps :
    ((after (.setChain [1, 1, 1, 0, 255, 0, 0, 9, 0]) (openAt 9)).chain 0).config
      = { cadence := .twoThree, runUp := 1, lampLead := 250, spoolLimit := 250, runOut := 9 } := by decide +kernel

theorem test_set_group_other_group :
    let s := { openAt 9 with groupB := { map := ⟨#[some 1, none, none, none], rfl⟩ } }
    lastOutcome (after (.setGroup [1, 2, 0, 0, 0]) s) = some (some .badReference)
      ∧ (after (.setGroup [1, 1, 0, 0, 3]) s).groupA.map = ⟨#[some 0, none, none, some 2], rfl⟩ := by decide +kernel

/-- The cued chain of Chapter 2: STILL FAULTY while the break shows, then CUED at its park target. -/
def brokenChain (brk : Bool) : State :=
  withChain (openAt 1405) 1
    { reported := { frame := 1962, brk := brk }, state := .faulted, faultCause := .brk,
      commanded := { motion := .spoolTo 1962, parkTarget := some 1962 } }

theorem test_clear_fault :
    lastOutcome (after (.clearFault [2]) (brokenChain true)) = some (some .stillFaulty)
      ∧ ((after (.clearFault [2]) (brokenChain false)).chain 1).state = .cued := by decide +kernel

theorem test_set_permit :
    (after (.setPermit [8, 0, 1, 31, 16, 0x01, 0x80]) (openAt 9)).permits[7]
      = { selectors := ⟨#[.always, .incomingReady, .watch 15, .watch 0], rfl⟩, entries := 0x8001 } := by decide +kernel

theorem test_set_window_orders_bounds :
    (after (.setWindow [16, 1, 9, 0, 5, 0, 0x85]) (openAt 9)).windows[15]
      = some { chain := 0, first := 5, last := 9, effect := .mask true false true } := by decide +kernel

theorem test_clear_window :
    let s := { openAt 9 with windows := Vector.replicate 16 (some { chain := 0, first := 5, last := 9, effect := .mark }) }
    (after (.clearWindow [1]) s).windows[0] = none ∧ (after (.clearWindow [1]) s).windows[1].isSome = true := by decide +kernel

theorem test_set_watch_clamps :
    ((after (.setWatch [9, 1, 4, 23, 0xFF, 2, 1, 0x00, 0x01]) (openAt 9)).watches.watches[8]).limit = 255
      ∧ lastOutcome (after (.setWatch [9, 1, 4, 24, 0xFF, 2, 1, 0x00, 0x01]) (openAt 9)) = some (some .badField) := by
  decide +kernel

theorem test_set_alarm :
    lastOutcome (after (.setAlarm [0, 3, 0]) (openAt 9)) = some (some .badField)
      ∧ (after (.setAlarm [41, 9, 0]) (openAt 9)).alarms.settings[41] = { level := 7, masked := false } := by decide +kernel

theorem test_set_alm_threshold : (after (.setAlmThreshold [0]) (nesting [] [(7, 6)])).alarms.alm = false := by decide +kernel

/-- A store of so many snapshots of nine cells, the chain mask all eight chains (section 10.3, worked example). -/
def storeOf (n : Nat) : State :=
  let cell : PositionCell :=
    { chain := 0, state := .idle, frame := 0, phase := 0, motor := .off, air := false, coasted := false, stale := false }
  { openAt 9 with snaps :=
      { store := List.replicate n { field := 0, kind := .desk, tag := none, cells := List.replicate 8 cell }
        settings := { chainMask := 0xFF } } }

/-- The 50th snapshot moves the cells from 441 to 450 and raises SNAPSHOT ALMOST FULL. -/
theorem test_snap_almost_full :
    let t := after (.snap []) (storeOf 49)
    cellsHeld t.snaps.store = 450 ∧ t.snaps.almostFull = true ∧ pendingOf t = [9] := by decide +kernel

/-- With 504 cells held a SNAP is answered FULL. -/
theorem test_snap_full : lastOutcome (after (.snap []) (storeOf 56)) = some (some .full) := by decide +kernel

theorem test_set_snapshot_empties_store :
    let t := after (.setSnapshot [4, 0, 0, 0, 0x03, 0, 0]) (storeOf 56)
    t.snaps.store = [] ∧ t.snaps.settings.dwell = 1 ∧ t.snaps.settings.almostFull = 1 := by decide +kernel

theorem test_periodic_snapshot :
    let s := storeOf 1
    let t := after .periodicSnapshot
      { s with snaps := { s.snaps with settings := { periodic := true, dwell := 3 }, dwellCount := 2 } }
    t.snaps.store.length = 2 ∧ t.snaps.dwellCount = 0 := by decide +kernel

theorem test_set_rehearse : (after (.setRehearse [1]) (openAt 9)).cues.rehearse = true := by decide +kernel

theorem test_set_withhold_limit :
    (after (.setWithholdLimit [0]) (openAt 9)).cues.limit = 1 ∧ (after (.setWithholdLimit [255]) (openAt 9)).cues.limit = 250 := by
  decide +kernel

theorem test_read_snapshots :
    let t := after (.readSnapshots [0]) (storeOf 2)
    t.snaps.readout = { state := .sending, owed := 1 } ∧ t.round.replies.map Reply.data = [[1, 9]] := by decide +kernel

theorem test_read_status : (after (.readStatus []) (openAt 9)).round.replies.map (fun r => r.data.length) = [16] := by
  decide +kernel

theorem test_read_chain :
    (after (.readChain [8]) (openAt 9)).round.replies.map (fun r => (r.part, r.last)) = [(1, false), (2, true)] := by
  decide +kernel

theorem test_read_group : lastOutcome (after (.readGroup [3]) (openAt 9)) = some (some .badField) := by decide +kernel

theorem test_read_cue :
    lastOutcome (after (.readCue [1, 3, 0]) firedBank) = some none
      ∧ lastOutcome (after (.readCue [2, 3, 0]) firedBank) = some (some .notFound) := by decide +kernel

/-- An entry of READ BANK holds the id in bits 0 to 9 and the state in bits 10 to 12: 3 + 3 · 1024. -/
theorem test_read_bank : (after (.readBank [1]) firedBank).round.replies.map Reply.data = [[1, 1, 3, 12]] := by decide +kernel

theorem test_read_watch : lastOutcome (after (.readWatch [0]) (openAt 9)) = some (some .badField) := by decide +kernel

theorem test_read_permit :
    (after (.readPermit [1]) (openAt 9)).round.replies.map Reply.data = [[0, 0, 0, 0, 0xFF, 0xFF]] := by decide +kernel

theorem test_read_window :
    (after (.readWindow [1]) (openAt 9)).round.replies.map Reply.data = [[0, 0, 0, 0, 0, 0, 0]] := by decide +kernel

theorem test_read_alarms :
    (after (.readAlarms [0xFF]) (openAt 9)).round.replies.length = 3
      ∧ lastOutcome (after (.readAlarms [42]) (openAt 9)) = some (some .badField) := by decide +kernel

theorem test_clear :
    let t := after (.clear []) firedBank
    liveStates t = [.armed] ∧ t.round.replies = [{ selector := 0x3E, field := 9 }] := by decide +kernel

theorem test_reset_controller : (after (.resetController []) (openAt 9)) = State.reset := by decide +kernel

theorem test_unknown_selector : lastOutcome (after (.unknownSelector 0x40 [1]) (openAt 9)) = some (some .unknown) := by
  decide +kernel

/-! ### The operator lines (section 6.3, a bounce, a take and a hold) -/

/-- The accepted level after each sample of a run. -/
def accepted (l : LineFilter) : List Contact → List (Option Contact)
  | [] => []
  | c :: rest => (l.sample c).accepted :: accepted (l.sample c) rest

theorem test_take_line :
    accepted { last := some .opened, accepted := some .opened }
        [.opened, .closed, .opened, .closed, .closed, .closed, .opened, .opened, .closed, .closed]
      = [some .opened, some .opened, some .opened, some .opened, some .closed, some .closed, some .closed, some .opened,
         some .opened, some .closed] := by decide

theorem test_hold_line :
    accepted { last := some .opened, accepted := some .opened }
        [.opened, .opened, .closed, .closed, .closed, .opened, .closed, .opened, .opened, .opened]
      = [some .opened, some .opened, some .opened, some .closed, some .closed, some .closed, some .closed, some .closed,
         some .opened, some .opened] := by decide

/-! ### Witnesses: states and operands that meet the hypotheses of the statements, clause by clause -/

/-- A START of chain 2 with the given state, alone in the LIVE bank; ids 3 and 4 for others. -/
def oneCue (st : CueState) (release : Release) (kind : CueKind) : State :=
  withBanks (openAt 50) [cueIn st { id := 3, chain := 0, kind := kind, release := release }] []

theorem witness_StepRunsTheFrontCommand : { openAt 9 with pending := [.syncLoss, .loopLoss] }.pending = [.syncLoss, .loopLoss] := by
  decide +kernel

theorem witness_FullResetCommandsResetEveryBlock :
    (openAt 9).rstActive = false ∧ (openAt 9).deskReady = true ∧ (after .rstAssert (openAt 9)).rstActive = true
      ∧ ({ openAt 9 with inputs := [{ rst := false }] } : State).inputs = [{ rst := false }] ∧ (openAt 9).pending = []
      ∧ ({ rst := false } : Pins).rst ≠ (openAt 9).pins.rst ∧ (after .rstAssert (openAt 9)).inputs = []
      ∧ ({ after .rstAssert (openAt 9) with inputs := [{ rst := false }, {}] } : State).rstActive = true := by
  decide +kernel

/-- One witness for the five statements about every step: a sound state whose step answers a next state. -/
theorem witness_step_keeps :
    firedBank.sound = true ∧ firedBank.cues.inOrder = true ∧ firedBank.cues.settled = true
      ∧ step { firedBank with pending := [.abandon [3, 0]] } = .next (after (.abandon [3, 0]) firedBank) :=
  ⟨by decide +kernel, by decide +kernel, by decide +kernel, rfl⟩

theorem witness_CueTasksAreAllCarriedOut : firedBank.cues.sound = true := by decide +kernel

/-- An idle sample period inside a character, one that ends a good character and the sample index at a round's last sample. -/
theorem witness_ReceiverReadsWhatShifterSends :
    let s (phase : RxPhase) : State := { State.reset with port := { phase := phase }, inputs := [{}] }
    (s (.startBit 8 0)).pending = [] ∧ (s .waiting).inputs = [({} : Pins)] ∧ (s .waiting).rstActive = false
      ∧ (s .waiting).round.fldFiltered = true ∧ (s .waiting).round.fldSample = true
      ∧ (s .waiting).round.keptInterval = none
      ∧ (rxStep (.startBit 8 0) true false 1).character = none
      ∧ (rxStep (.inCharacter [true, false, false, false, false, false, false, false, false] 1 5) true false 1).character
        = some { gap := 5, data := 1, bad := false }
      ∧ 351 < 176 * ([0x55, 0xAA] : List Byte).length := by decide +kernel

theorem witness_AssemblerReadsWhatIsSent :
    ∀ t ∈ [({ dest := 14, src := 0, kind := 0x21, payload := List.replicate 24 7 } : Telegram), allStopTelegram],
      t.payload.length ≤ 24 := by decide

/-- A bad character at the length byte and behind it, a length of 25, a wrong check byte, gaps of 352 and 353 samples. -/
theorem witness_BadCharacterDiscardsItsTelegram :
    (openAt 9).rstActive = false ∧ (openAt 9).port.assembler = .awaitAddress ∧ allStopTelegram.payload.length ≤ 24
      ∧ 2 < telegramChars allStopTelegram ∧ 3 < telegramChars allStopTelegram ∧ 24 < (25 : Byte).toNat
      ∧ (0xBE : Byte) ≠ ((telegramBytes allStopTelegram).take 3).foldl (· ^^^ ·) 0
      ∧ (0xBF : Byte) = ((telegramBytes allStopTelegram).take 3).foldl (· ^^^ ·) 0
      ∧ (∀ c ∈ [({ gap := 352, data := 1, bad := false } : RxChar)], c.gap ≤ 352)
      ∧ 352 < ({ gap := 353, data := 1, bad := false } : RxChar).gap := by decide +kernel

/-- A gap of 353 samples inside a telegram begins a new one, a gap of 352 does not (R5). -/
theorem test_telegram_gap :
    let s (gap : Nat) := after (.telegramFail [⟨0, 0x01, false⟩, ⟨gap, 0x10, false⟩]) (openAt 9)
    (s 353).port.assembler = .inTelegram [0x10] false ∧ (s 352).port.assembler = .inTelegram [0x01, 0x10] false := by
  decide +kernel

/-- No window; and with one open a wrong kind, a wrong destination and a second report, at the first and last station. -/
theorem witness_UselessTelegramsAreDiscarded :
    let s : State := { openAt 9 with round := { (openAt 9).round with reported := [1, 10] } }
    State.reset.receiving = true ∧ State.reset.windowOpen = false ∧ ¬ ((1 : Station) = 0 ∧ kindChainReport = kindFieldHead)
      ∧ (openAt 9).receiving = true ∧ (openAt 9).windowOpen = true
      ∧ (1 : Station).toNat = 1 ∧ (8 : Station).toNat = 8 ∧ kindMuxReport ≠ kindChainReport ∧ (3 : Station) ≠ 0
      ∧ (3 : Station) ≠ 15 ∧ kindDeskReply ≠ kindDeskCommand
      ∧ s.windowOpen = true ∧ chainAddress 0 ∈ s.round.reported ∧ groupAddress .b ∈ s.round.reported := by decide +kernel

theorem witness_ShifterFinishesTheRound :
    let p : Shifter := { rounds := [[1, 2], [3]], position := 352 }
    p.position ≤ 176 * ([1, 2] : List Byte).length ∧ ∀ r ∈ ([[3]] : List (List Byte)), r ≠ [] := by decide

/-- Early at 749 of 1000, not early at 750; learning with and without a usable reference; unlocked and lost; an idle period with a
first low sample of FLD and one with the second, one sample before the flywheel would expire. -/
theorem witness_FieldSyncFollowsItsTable :
    let low : Pins := { fld := false }
    let s : State := { lockedState with
      now := 2248, inputs := [low], round := { lockedState.round with fldSample := false } }
    lockedState.rstActive = false ∧ 4 * (1000 + 749 - 1000) < 3 * 1000 ∧ ¬ 4 * (1000 + 750 - 1000) < 3 * 1000
      ∧ lockedState.round.sync = .locked ∧ State.reset.round.sync = .unlocked ∧ State.reset.rstActive = false
      ∧ (after (.fieldSyncArrival 5 .opened .opened) State.reset).round.sync = .learning
      ∧ (after (.fieldSyncArrival 5 .opened .opened) State.reset).round.reference = some 5
      ∧ (after .syncLoss { lockedState with round := { lockedState.round with flywheel := 2 } }).round.sync = .lost
      ∧ (after (.flywheelExpiry 1250 .opened .opened) lockedState).round.reference = none
      ∧ lockedState.round.fldSample = true ∧ s.round.fldSample = false
      ∧ s.pending = [] ∧ s.inputs = [low] ∧ s.rstActive = false ∧ low.rst = true ∧ s.round.fldFiltered = true
      ∧ s.port.phase = .waiting ∧ s.port.filtered = true ∧ s.port.lastSample = true ∧ low.lrx = true
      ∧ ¬ 5 * 1000 ≤ 4 * (s.now + 1 - 1000) := by decide +kernel

/-- Due exactly at one and a quarter intervals, one sample period short of it, overdue, with no interval; and due in the idle period
that reaches it. -/
theorem witness_FlywheelExpiryLaunchesARound :
    let s : State := { lockedState with now := 2249, inputs := [{}] }
    lockedState.rstActive = false ∧ lockedState.round.keptInterval = some 1000 ∧ lockedState.round.lastLaunch = some 1000
      ∧ 1000 ≤ lockedState.now ∧ 5 * 1000 ≤ 4 * (lockedState.now + 1250 - 1000)
      ∧ 4 * (lockedState.now + 1249 - 1000) < 5 * 1000 ∧ 5 * 1000 ≤ 4 * (2300 + 0 - 1000)
      ∧ State.reset.round.keptInterval = none ∧ (after .rstAssert lockedState).rstActive = true
      ∧ s.rstActive = false ∧ s.pending = [] ∧ s.inputs = [{}] ∧ s.round.fldFiltered = true ∧ s.round.fldSample = true
      ∧ s.port.phase = .waiting ∧ s.port.filtered = true ∧ s.port.lastSample = true
      ∧ 4 * (s.now - 1000) < 5 * 1000 ∧ 5 * 1000 ≤ 4 * (s.now + 1 - 1000) := by decide +kernel

/-- One sample period short of the instant nothing expires; overdue, it expires at once (R8, log 9). -/
theorem test_flywheel_instant :
    ((after (.flywheelExpiry 1249 .opened .opened) lockedState).now,
        (after (.flywheelExpiry 1249 .opened .opened) lockedState).round.fieldCount) = (2249, 10)
      ∧ (after (.flywheelExpiry 7 .opened .opened) { lockedState with now := 2300 }).round.lastLaunch = some 2300 := by
  decide +kernel

theorem witness_ThirdMissDeclaresTheLoss :
    State.syncLossNext { lockedState with round := { lockedState.round with flywheel := 2 } } = true
      ∧ ({ lockedState with round := { lockedState.round with broken := 2 } } : State).round.broken = 2 := by decide +kernel

/-- A full round that leaves a set and a reply, with the cue of the set left LIVE and FIRED, unmasked; and an accepted sync. -/
theorem witness_RoundKeepsTheBudget :
    let s := { fullQueue with cues := { live := [cueIn .fired { id := 31, chain := 0, kind := .stop, release := .auto }] } }
    fullQueue.fixRound.round.sets.length = 1 ∧ 0 < fullQueue.round.sets.length ∧ s.round.phase = .complete
      ∧ (s.liveCue 31).isSome = true ∧ (s.launch.round.sets.filter (fun a => a.cue == 31)).length = 1
      ∧ s.lateMasked 0 = false ∧ lockedState.rstActive = false
      ∧ ((lockedState.setContacts .opened .opened).elapse 750).syncIgnored = false := by decide +kernel

/-- Fixings with a readout: none, one build with no space left for more cells, and two builds of a readout that goes on. -/
theorem witness_RoundKeepsTheBudget_data :
    let s := after (.readSnapshots [2]) (storeOf 3)
    let sent : State := { s with round := { s.round with replies := [] } }
    let full : State := { s with round := { s.round with
      replies := List.replicate 4 { selector := 0x38, field := 0, data := List.replicate 9 0 } } }
    (storeOf 3).snaps.build 115 = none
      ∧ (sent.fix.telegrams.map (fun t => t.payload.length)) = [22, 22] ∧ sent.fixRound.snaps.readout.state = .sending
      ∧ sent.fixRound.snaps.readout.nextCell = 9
      ∧ (full.fix.telegrams.map (fun t => t.kind)) = List.replicate 4 kindDeskReply ++ [kindSnapshotData]
      ∧ full.fixRound.snaps.readout.number = 1 := by decide +kernel

/-- A third round in a row that does not come back, its window open and not (section 1.7). -/
theorem witness_RoundKeepsTheBudget_broken :
    let s (phase : RoundPhase) : State := { openAt 240 with round := { (openAt 240).round with phase := phase, broken := 2 } }
    (s .windowOpen).round.phase = .windowOpen ∧ (s .awaited).round.phase = .awaited ∧ (s .awaited).round.broken = 2
      ∧ (openAt 240).round.broken ≠ 2
      ∧ (s .awaited).launch.round.broken = 3 ∧ (s .awaited).launch.alarmStands srcLoopLoss = true := by decide +kernel

theorem witness_FieldHeadOpensItsWindow :
    let s := after (.fieldSyncArrival 5 .opened .opened) State.reset
    s.receiving = true ∧ s.round.phase = .awaited ∧ s.round.fieldCount = 1 ∧ (openAt 9).receiving = true
      ∧ (openAt 9).round.phase ≠ .awaited := by decide +kernel

/-- The round of field 9; a watch of each sort: disabled, on a chain's report, on a lower watch. -/
theorem witness_RoundEndClosesTheField :
    (openAt 9).inWindow = true ∧ (openAt 9).round.fieldCount = 9 ∧ ((openAt 9).watches.watches[15]).enabled = false
      ∧ ({ enabled := true } : Watch).qualifier = none ∧ ({ enabled := true } : Watch).signal = .reportPresent
      ∧ (14 : WatchNo) < 15 := by decide +kernel

/-- A RUN that agrees, one that agrees with nothing; its cue FIRED and not; with a swap pending alone, beside a FIRED cue, and beside
a WITHHELD one that follows none. -/
theorem witness_ReturnedActionFailsItsCue :
    let own : Cue := cueIn .fired { id := 11, chain := 1, kind := .start, release := .auto }
    let waits (live : List Cue) : State := { placedRun with cues := { placedRun.cues with live := live, swapPending := true } }
    let beside (st : CueState) : State := waits [own, cueIn st { id := 3, chain := 0, kind := .stop, release := .auto }]
    placedRun.inWindow = true ∧ kindRun ≠ kindFieldHead ∧ kindRun ≠ kindRoundEnd
      ∧ placedRun.round.placed = [] ++ { telegram := cueAction 1 kindRun 11, cue := 11 } :: []
      ∧ ((cueAction 1 kindRun 11).dest, (cueAction 1 kindRun 11).kind, (cueAction 1 kindRun 11).payload)
        = (chainAddress 1, kindRun, [11, 0])
      ∧ (placedRun.liveCue 11).map (fun c => c.runtime.state) = some .fired ∧ placedRun.cues.swapPending = false
      ∧ bankSound placedRun.cues.live = true ∧ (cueAction 1 kindRun 11).payload ≠ [12, 0]
      ∧ ((waits []).liveCue 11).isNone = true ∧ (waits [own]).cues.swapPending = true ∧ bankSound (waits [own]).cues.live = true
      ∧ (beside .fired).liveHas 3 (fun d => d.runtime.state == .fired) = true ∧ bankSound (beside .fired).cues.live = true
      ∧ (beside .withheld).liveHas 3 (fun d => d.runtime.state == .withheld && d.fields.follow == none) = true := by
  decide +kernel

/-- The failure of the last cue that holds a pending swap takes the swap; a DONE cue stays DONE (R70, R102). -/
theorem test_own_return_other_ways :
    let swaps : State := { placedRun with cues := { placedRun.cues with swapPending := true } }
    let done := { placedRun with cues := { placedRun.cues with
      live := [cueIn .done { id := 11, chain := 1, kind := .start, release := .auto }] } }
    (after (.ownTelegramReturn 2 kindRun [11, 0]) swaps).cues.swapPending = false
      ∧ liveStates (after (.ownTelegramReturn 2 kindRun [11, 0]) done) = [.done]
      ∧ pendingOf (after (.ownTelegramReturn 2 kindRun [11, 0]) done) = [8] := by decide +kernel

theorem witness_SuccessorStepsOneField :
    (1 : BitVec 2).toNat + 1 < fieldsOf .twoThree (65535 : Frame).toNat
      ∧ fieldsOf .twoThree (65535 : Frame).toNat ≤ (2 : BitVec 2).toNat + 1 := by decide

/-- A valid report; and a FIRED cue of the chain whose effect field has come at the field of the report, at its first. -/
theorem witness_ValidReportUpdatesItsRecord :
    let s := reelEnd 43160 1 1060
    let u := withBanks s [{ fields := { id := 3, chain := 0, kind := .stop, release := .auto },
                            runtime := { state := .fired, effectField := some 1060 } }] []
    s.inWindow = true ∧ s.round.reported.contains (chainAddress 0) = false ∧ (s.chain 0).config.enabled = true
      ∧ (validChainReport (s.chain 0).config.cadence [0x99, 0xA8, 0x08, 0x01]).isSome = true
      ∧ u.inWindow = true ∧ u.cues.swapPending = false ∧ bankSound u.cues.live = true
      ∧ (u.liveCue 3).map (fun c => (c.runtime.state, c.fields.chain)) = some (.fired, 0)
      ∧ 0 ≤ fieldDiff u.round.fieldCount 1060 ∧ fieldDiff u.round.fieldCount 1061 < 0
      ∧ 4 < ((0x14 : Byte).extractLsb' 2 3).toNat ∧ ¬ 4 < ((0x10 : Byte).extractLsb' 2 3).toNat
      ∧ ((0x03 : Byte).extractLsb' 0 2).toNat = 3
      ∧ ((0x4C : Byte).extractLsb' 2 3).toNat = 3 ∧ 2 ≤ ((0x4C : Byte).extractLsb' 5 2).toNat
      ∧ fieldsOf .twoThree (word 0x98 0xA8).toNat ≤ ((0x0A : Byte).extractLsb' 0 2).toNat
      ∧ ((withChain s 0 { config := { enabled := false } }).chain 0).config.enabled = false := by decide +kernel

/-- A report for each clause: a FAULTED record, break, gate with break clear, a failed lamp with the motor driven and off, each motor
value in health, and each reason to take at speed unchecked. -/
theorem witness_ArrivalDerivesTheState :
    ({ state := .faulted, faultCause := .brk } : ChainRecord).state = .faulted ∧ ({} : ChainRecord).state ≠ .faulted
      ∧ ({ brk := true } : Reported).brk = true ∧ ({ gate := true } : Reported).brk = false
      ∧ ({ lamp := .failed, motor := .runUp } : Reported).gate = false
      ∧ ({ lamp := .failed } : Reported).motor = .off ∧ ({ motor := .spooling } : Reported).brk = false
      ∧ ({ motor := .runUp } : Reported).lamp ≠ .failed ∧ ({ motor := .atSpeed } : Reported).lamp ≠ .failed
      ∧ ({ state := .runUp } : ChainRecord).state ≠ .atSpeed
      ∧ ({ state := .atSpeed, stale := true } : ChainRecord).stale = true
      ∧ ({ state := .atSpeed, referenceDropped := true } : ChainRecord).referenceDropped = true := by decide

/-- A match at frame 65535, a first slip, a second slip. -/
theorem witness_SecondSlipFaultsTheChain :
    (running 65535 2 0).state = .atSpeed ∧ (running 65535 2 0).stale = false ∧ (running 65535 2 0).referenceDropped = false
      ∧ (atSpeedAt 0 0).brk = false ∧ (atSpeedAt 0 0).gate = false ∧ (atSpeedAt 0 0).lamp ≠ .failed
      ∧ (atSpeedAt 0 0).motor = .atSpeed ∧ (running 65535 2 1).slipCount ≤ 1
      ∧ ((0 : Frame), (0 : BitVec 2)) = successor .twoThree 65535 2
      ∧ ((0 : Frame), (1 : BitVec 2)) ≠ successor .twoThree 65535 2 := by decide

theorem witness_SilentChainGoesStaleThenAbsent :
    let s := withChain firedBank 0 { state := .runUp, missingCount := 2 }
    let u := withChain firedBank 0 { state := .runUp, missingCount := 24, stale := true }
    (s.chain 0).config.enabled = true ∧ (s.chain 0).state ≠ .absent ∧ (s.chain 0).heard = false ∧ (s.chain 0).stale = false
      ∧ (s.chain 0).missingCount = 2 ∧ (u.chain 0).missingCount = 24 ∧ (u.chain 0).state ≠ .absent
      ∧ u.cues.swapPending = false ∧ bankSound u.cues.live = true
      ∧ (u.liveCue 3).map (fun c => (c.runtime.state, c.fields.chain)) = some (.fired, 0) := by decide +kernel

/-- A record for each row of Table 2-4, with one that is not examined, one that was heard and one that coasts and becomes stale. -/
theorem witness_SilentChainGoesStaleThenAbsent_rows :
    let on : ChainConfig := { enabled := true }
    let r (st : ChainState) (missing coasts : Nat) (stale : Bool) : ChainRecord :=
      { config := on, state := st, missingCount := missing, coastCount := coasts, stale := stale,
        reported := { frame := 100, motor := .atSpeed } }
    let coasted := settleRecord (r .atSpeed 1 1 false)
    (settleRecord { r .idle 0 0 false with heard := true }).record = r .idle 0 0 false
      ∧ (settleRecord (r .absent 0 0 false)).record = r .absent 0 0 false
      ∧ (coasted.record.missingCount, coasted.record.coastCount, coasted.record.coasted, coasted.coasted) = (2, 2, true, true)
      ∧ (coasted.record.reported.frame, coasted.record.reported.phase) = (100, 1)
      ∧ (settleRecord (r .atSpeed 2 2 false)).record = { r .atSpeed 3 2 false with stale := true }
      ∧ (settleRecord (r .idle 1 0 false)).record = r .idle 2 0 false
      ∧ (settleRecord (r .idle 2 0 false)).stale = true ∧ (settleRecord (r .idle 23 0 true)).record = r .idle 24 0 true
      ∧ (settleRecord (r .atSpeed 24 2 true)).record = { r .absent 25 0 true with faultCause := .none }
      ∧ (settleRecord (r .atSpeed 2 0 false)).record.coasted = true
      ∧ (settleRecord (r .atSpeed 2 0 false)).coasted = false := by decide +kernel

/-- The START of the reel-end case alone, ARMED, with its reference at a position last updated in field u (section 3.6). -/
def armedStart (frame : Frame) (phase : BitVec 2) (u : Field) (sent : Bool) : State :=
  let s := withBanks (reelEnd frame phase 1060) [{
    fields := { id := 11, chain := 1, kind := .start, reference := some 0, frame := 43200, release := .auto },
    runtime := { state := .armed, lampSent := sent } }] []
  { s with cues := { s.cues with updateField := s.cues.updateField.set 0 (some u) } }

/-- Due at the bound, a late one at the limit and one MISSED behind it, the lamp-up alone and not yet due; a reference that is stale,
off speed or never updated; cues that arm and that take. -/
theorem witness_FieldsToFrameFallsByOne :
    (65534 : Frame).toNat < 65535 ∧ (1 : BitVec 2).toNat < fieldsOf .twoThree (65534 : Frame).toNat
      ∧ (100 : Nat) < 101 ∧ (101 - 100 : Nat) % 2 = 1 ∧ (102 - 100 : Nat) % 2 = 0 ∧ (100 : Nat) ≤ 100
      ∧ ((armedStart 43161 0 1060 true).liveCue 11).map (fun c => c.runtime.state) = some .armed
      ∧ ((armedStart 43161 0 1060 true).chain 0).state = .atSpeed ∧ ((armedStart 43161 0 1060 true).chain 0).stale = false
      ∧ (armedStart 43161 0 1060 true).liveHas 11 (fun c =>
          (armedStart 43161 0 1060 true).dueDistance c.fields == 0 && (armedStart 43160 1 1060 true).dueDistance c.fields == 1
            && (armedStart 43137 0 1060 false).dueDistance c.fields == 60
            && (armedStart 43136 1 1060 false).dueDistance c.fields == 61) = true
      ∧ fieldDiff 1060 1060 - 0 ≤ 50 ∧ fieldDiff 1060 1010 - 0 ≤ 50 ∧ 50 < fieldDiff 1060 1009 - 0
      ∧ 60 - 60 ≤ fieldDiff 1060 1060 ∧ ¬ 61 - 60 ≤ fieldDiff 1060 1060
      ∧ (State.reset.chain 0).state ≠ .atSpeed ∧ State.reset.cues.updateField[(0 : ChainNo)] = none
      ∧ (reelEnd 43160 1 1060).inWindow = true ∧ (reelEnd 43160 1 1060).round.reported.contains (chainAddress 0) = false
      ∧ ((reelEnd 43160 1 1060).chain 0).config.enabled = true
      ∧ (validChainReport ((reelEnd 43160 1 1060).chain 0).config.cadence [0x99, 0xA8, 0x08, 0x01]).isSome = true := by
  decide +kernel

/-- Field 1000 of the reel-end case: the lamp-up goes alone (section 3.6). -/
theorem test_lamp_up_alone :
    let s := armedStart 43137 0 1060 false
    let t := s.carryOut [.evaluate 11]
    liveStates t = [.armed] ∧ t.round.sets = [{ cue := 11, telegrams := [cueAction 1 kindLampUp 11] }]
      ∧ (t.chain 1).commanded.lamp = .up := by decide +kernel

/-- Found due 51 fields late, above the limit of 50: MISSED (R53). -/
theorem test_missed_beyond_limit :
    ((armedStart 43161 0 1009 true).carryOut [.evaluate 11]).fateOf 11 = some (.failed, .missed)
      ∧ liveStates ((armedStart 43161 0 1010 true).carryOut [.evaluate 11]) = [.fired] := by decide +kernel

theorem witness_EditsPassTheGateInOrder :
    (openAt 9).deskReady = true ∧ ¬ ((3 : Byte) = 1 ∨ (3 : Byte) = 2)
      ∧ ({ openAt 9 with cues := { swapPending := true } } : State).deskReady = true := by decide +kernel

/-- A full PRESET bank of 64 cues, and one with a single cue. -/
def presetOf (n : Nat) : State :=
  withBanks (openAt 9) []
    ((List.range n).map (fun i => cueIn .waiting { id := BitVec.ofNat 16 (i + 1), chain := 0, kind := .mark, release := .take }))

/-- Good and bad fields at their bounds; a bank with one cue and a full one; a cue to stand before; the place before it held. -/
theorem witness_LoadCueAppendsToPreset :
    (presetOf 1).deskReady = true ∧ (presetOf 2).cues.swapPending = false ∧ 64 ≤ (presetOf 64).cues.preset.length
      ∧ (word 0xE7 0x03).toNat = 999 ∧ (word 0xE8 0x03).toNat = 1000 ∧ ¬ 1 ≤ (word 0 0).toNat
      ∧ (∀ c ∈ (presetOf 64).cues.preset, c.fields.id ≠ 999) ∧ (∃ c ∈ (presetOf 2).cues.preset, c.fields.id = 2)
      ∧ ((presetOf 2).cues.preset.map (fun c => c.fields.id)) = [1, 2]
      ∧ releaseOf 4 = some .follow ∧ kindOf 5 = some .shutter ∧ kindOf 7 = none ∧ indexOf 8 9 = none := by decide +kernel

theorem witness_DeleteAndClearEditPreset :
    let s := withBanks (openAt 9) []
      [cueIn .waiting { id := 12, chain := 0, kind := .mark, release := .auto },
       cueIn .waiting { id := 13, chain := 0, kind := .mark, release := .follow, follow := some 12 }]
    s.deskReady = true ∧ s.cues.swapPending = false ∧ goodId 1000 = false ∧ goodId 999 = true
      ∧ findCue s.cues.preset 999 = none ∧ (findCue s.cues.preset 12).isSome = true
      ∧ s.cues.preset.any (fun c => c.fields.follow == some 12 && c.fields.id != 12) = true
      ∧ (findCue s.cues.preset 13).isSome = true
      ∧ s.cues.preset.any (fun c => c.fields.follow == some 13 && c.fields.id != 13) = false := by decide +kernel

theorem witness_SwapIsTakenOrSetPending :
    (openAt 9).deskReady = true ∧ (∀ c ∈ (openAt 9).cues.live, c.runtime.state ≠ .withheld ∧ c.runtime.state ≠ .fired)
      ∧ firedBank.deskReady = true ∧ (∃ c ∈ firedBank.cues.live, c.runtime.state = .withheld ∨ c.runtime.state = .fired)
      ∧ firedBank.cues.swapPending = false
      ∧ ({ firedBank with cues := { firedBank.cues with swapPending := true } } : State).deskReady = true := by decide +kernel

/-- A PRESET bank with cues, and an empty one beside a LIVE START whose lamp-up set still waits. -/
theorem witness_TakenSwapExchangesTheBanks :
    let s := oneCue .armed .auto .start
    let waiting : State :=
      { s with round := { s.round with sets := [setOf 3 1, setOf 4 1] }, cues := { s.cues with swapPending := true } }
    State.swapReady { presetOf 2 with cues := { (presetOf 2).cues with swapPending := true } } = true
      ∧ waiting.swapReady = true ∧ waiting.cues.preset = []
      ∧ (after .swapTaken waiting).round.sets = [setOf 4 1] := by decide +kernel

theorem witness_CancelSwapClearsTheFlag :
    ({ openAt 9 with cues := { swapPending := true } } : State).deskReady = true := by decide +kernel

theorem witness_AbandonEndsALiveCue :
    firedBank.deskReady = true ∧ goodId 0 = false ∧ goodId 3 = true ∧ firedBank.liveCue 999 = none ∧ goodId 999 = true
      ∧ (firedBank.liveCue 3).map (fun c => c.runtime.state) = some .fired ∧ firedBank.cues.swapPending = false
      ∧ bankSound firedBank.cues.live = true
      ∧ ((oneCue .done .auto .park).liveCue 3).map (fun c => c.runtime.state) = some .done := by decide +kernel

/-- A FIRED cue with a WAITING follower in another chain, before a WAITING cue of its own chain. -/
def followedBank : State :=
  withBanks (openAt 9)
    [ cueIn .fired { id := 3, chain := 0, kind := .stop, release := .auto },
      cueIn .armed { id := 4, chain := 1, kind := .mark, release := .take },
      cueIn .waiting { id := 5, chain := 1, kind := .mark, release := .follow, follow := some 3 },
      cueIn .waiting { id := 6, chain := 0, kind := .mark, release := .take } ] []

theorem witness_AbandonEndsALiveCue_heads :
    (∃ c, isHead followedBank.cues.live 0 c ∧ c.runtime.state = .waiting)
      ∧ (∃ c, isHead followedBank.cues.live 1 c ∧ c.runtime.state ≠ .waiting)
      ∧ ¬ ∃ c, isHead followedBank.cues.live 2 c := by
  refine ⟨⟨_, ⟨[_, _, _], [], rfl, rfl, .inl rfl, ?_⟩, rfl⟩, ⟨_, ⟨[_], [_, _], rfl, rfl, .inr (.inl rfl), ?_⟩, ?_⟩, ?_⟩
  · simp [Cue.unfinished, cueIn]
  · simp [cueIn]
  · simp [cueIn]
  · rintro ⟨c, front, back, e, hc, -⟩
    have : c ∈ followedBank.cues.live := by rw [e]; simp
    revert hc
    simp only [followedBank, withBanks, List.mem_cons, List.not_mem_nil, or_false] at this
    rcases this with rfl | rfl | rfl | rfl <;> decide

/-- A chain with no head, one with an ARMED head, one with a WAITING head behind a FIRED cue; a follower; a swap that a FIRED cue,
the last that holds it, brings about as it ends, and none. -/
theorem witness_AbandonEndsALiveCue_following :
    let s := followedBank
    let ended := (cueIn .failed { id := 3, chain := 0, kind := .stop, release := .auto })
    let leaving := withBanks { s with cues := { swapPending := true } } [ended] []
    (s.liveCue 5).map (fun c => (c.fields.follow, c.fields.release, c.runtime.state)) = some (some 3, .follow, .waiting)
      ∧ (s.liveCue 3).map (fun c => c.runtime.state) = some .fired ∧ bankSound s.cues.live = true
      ∧ headOf s.cues.live 2 = none ∧ (headOf s.cues.live 1).map (fun c => (c.fields.id, c.runtime.state)) = some (4, .armed)
      ∧ (headOf s.cues.live 0).map (fun c => (c.fields.id, c.runtime.state)) = some (6, .waiting)
      ∧ liveStates (after (.abandon [3, 0]) s) = [.abandoned, .armed, .abandoned, .armed]
      ∧ (leaving.settleChange (cueIn .fired ended.fields) ended.runtime).swapped = true
      ∧ (s.settleChange (cueIn .fired ended.fields) ended.runtime).tasks = [.abandonFollower 5, .eligible 0] := by decide +kernel

/-- No candidate; a GATED one; and for firing a cue of each kind, late and in time, a lamp-up set waiting and not, mapped and not. -/
theorem witness_TakeGoesToEarliestCandidate :
    let lampUp : ActionSet := { cue := 3, telegrams := [cueAction 0 kindLampUp 3] }
    let s := oneCue .armed .gated .changeover
    let mapped : State := { s with groupA := { map := ⟨#[some 0, some 1, none, none], rfl⟩, holder := some 1 } }
    firedBank.deskReady = true ∧ firedBank.cues.live.find? Cue.wantsTake = none
      ∧ ((oneCue .armed .gated .park).cues.live.find? Cue.wantsTake).isSome = true
      ∧ (oneCue .armed .gated .park).cues.swapPending = false ∧ bankSound (oneCue .armed .gated .park).cues.live = true
      ∧ ((oneCue .withheld .take .start).liveCue 3).isSome = true
      ∧ (∃ a ∈ ({ s with round := { s.round with sets := [lampUp] } } : State).round.sets, a.cue = 3)
      ∧ (∀ a ∈ s.round.sets, a.cue ≠ 3) ∧ mapped.groupOf 0 = some (.a, 0) ∧ (mapped.group .a).holder = some 1
      ∧ (mapped.group .a).holder ≠ some 0 ∧ s.snapshotFits = true ∧ s.lateMasked 0 = false
      ∧ 0 < min 255 (fieldDiff s.fieldCount 49).toNat ∧ min 255 (fieldDiff s.fieldCount 50).toNat = 0 := by
  decide +kernel

theorem witness_AllStopAbandonsAndStops :
    firedBank.deskReady = true ∧ firedBank.cues.swapPending = false ∧ bankSound firedBank.cues.live = true
      ∧ (firedBank.liveCue 3).map (fun c => c.runtime.state) = some .fired
      ∧ ∀ c ∈ firedBank.cues.live, c.fields.chain ≠ 7 := by decide +kernel

/-- A GATED cue with no take; a STOP of a chain at rest; a SHUTTER of an ABSENT chain; a MARK under HOLD and without it; rehearse. -/
theorem witness_FiringDecisionChecksInOrder :
    let mark : CueFields := { id := 3, chain := 0, kind := .mark, release := .auto }
    let s := withChain (openAt 9) 1 { state := .idle }
    let u := withChain (oneCue .armed .auto .stop) 0 { state := .idle }
    s.cues.rehearse = false ∧ s.alreadyDone { mark with kind := .stop, chain := 1 } = true
      ∧ s.alreadyDone { mark with kind := .shutter } = false ∧ s.builtIn { mark with kind := .shutter } = false
      ∧ s.alreadyDone mark = false ∧ s.builtIn mark = true ∧ s.hold.accepted ≠ some .closed
      ∧ ({ s with hold := { accepted := some .closed } } : State).hold.accepted = some .closed
      ∧ ({ s with cues := { rehearse := true } } : State).cues.rehearse = true
      ∧ (oneCue .armed .auto .park).liveHas 3 (fun c => (oneCue .armed .auto .park).verdict c == .withheld .condition) = true
      ∧ (oneCue .withheld .gated .mark).liveHas 3 (fun c => (oneCue .withheld .gated .mark).verdict c == .withheld .noTake) = true
      ∧ u.liveHas 3 (fun c => u.verdict c == .completes) = true ∧ u.cues.swapPending = false ∧ u.lateMasked 0 = false
      ∧ u.snapshotFits = true := by decide +kernel

/-- A FIRED SHUTTER at its third count and in effect, one a field early, a START at its deadline; a WITHHELD cue at its limit. -/
theorem witness_CountedOutCueFails :
    let s := withBanks (openAt 50)
      [ { fields := { id := 7, chain := 0, kind := .shutter, release := .auto, sense := some .opening },
          runtime := { state := .fired, effectField := some 50, confirmCount := 2 } },
        { fields := { id := 8, chain := 0, kind := .park, release := .gated },
          runtime := { state := .withheld, withholdCount := 49 } },
        { fields := { id := 9, chain := 1, kind := .start, release := .auto },
          runtime := { state := .fired, effectField := some 50, expected := some 25 } } ] []
    s.cues.swapPending = false ∧ bankSound s.cues.live = true ∧ (s.liveCue 7).isSome = true
      ∧ s.liveHas 7 (fun c => s.timesOut c s.fieldCount) = true ∧ s.liveHas 8 s.tooLong = true
      ∧ 0 ≤ fieldDiff 50 50 ∧ fieldDiff 49 50 < 0 ∧ (s.liveCue 9).isSome = true ∧ 0 ≤ fieldDiff 50 (25 + 25)
      ∧ fieldDiff 49 (25 + 25) < 0 ∧ (8 : CueId) ∉ ([] : List CueId) := by decide +kernel

/-- A follower due exactly at its offset, and one beyond the late limit; the counts wrap through 0. -/
theorem witness_FollowerIsDueAfterItsOffset :
    let s (f : Field) := withBanks (openAt f)
      [ { fields := { id := 12, chain := 1, kind := .mark, release := .auto },
          runtime := { state := .done, firedField := some 65530 } },
        cueIn .armed { id := 13, chain := 0, kind := .mark, release := .follow, follow := some 12, offset := 10 } ] []
    (s 4).liveHas 13 (fun c => (s 4).followReached c 4) = true ∧ (s 4).cues.swapPending = false
      ∧ (s 4).cues.inOrder = true ∧ (s 55).cues.inOrder = true
      ∧ bankSound (s 4).cues.live = true ∧ fieldDiff 4 (moveField 65530 10) ≤ ((s 4).cues.limit : Int)
      ∧ ((s 55).cues.limit : Int) < fieldDiff 55 (moveField 65530 10) := by decide +kernel

/-- A first report of group B; a FIRED changeover in flight whose effect field has come; no flight with the flag clear and set. -/
theorem witness_MuxReportMakesTheAirHolder :
    let s := withBanks (openAt 9) [{ fields := { id := 3, chain := 0, kind := .changeover, release := .auto },
                                     runtime := { state := .fired, effectField := some 9 } }] []
    let flying : State := { s with groupB := { map := ⟨#[some 0, some 1, none, none], rfl⟩, inFlight := some ⟨3, 0, 0, some 1⟩ } }
    (openAt 9).inWindow = true ∧ (openAt 9).round.reported.contains (groupAddress .b) = false
      ∧ decodeMuxReport [4, 1] = some (4, true) ∧ decodeMuxReport [0, 0] = some (0, false)
      ∧ ((openAt 9).group .b).inFlight = none ∧ ((openAt 9).group .b).fault = false
      ∧ ({ openAt 9 with groupB := { fault := true } } : State).groupB.fault = true
      ∧ (openAt 9).alarms.isPending srcChangeoverFailed = false
      ∧ (flying.group .b).inFlight = some ⟨3, 0, 0, some 1⟩ ∧ flying.inWindow = true ∧ flying.cues.swapPending = false
      ∧ bankSound flying.cues.live = true
      ∧ (flying.liveCue 3).map (fun c => (c.fields.kind, c.runtime.state)) = some (.changeover, .fired)
      ∧ 0 ≤ fieldDiff flying.round.fieldCount 9 ∧ fieldDiff flying.round.fieldCount 10 < 0
      ∧ ([4] : List Byte).length ≠ 2 ∧ 4 < (5 : Byte).toNat ∧ 1 < (2 : Byte).toNat := by decide +kernel

/-- A cause in the set and one not; a holder kept, lost to a black input, and a chain newly on air. -/
theorem witness_AirFaultIsRaisedOncePerTenure :
    let shown (input : Fin 5) (holder : Option ChainNo) : State :=
      { withChain (openAt 9) 0 { state := .atSpeed } with
        groupA := { map := ⟨#[some 0, none, none, none], rfl⟩, selected := some input, holder := holder,
                    causes := { speed := true } } }
    ((shown 1 none).group .a).causes.has .speed = true ∧ ((shown 1 none).group .a).causes.has .silent = false
      ∧ (shown 1 none).alarms.isPending srcAirFault = false
      ∧ (((shown 1 none).group .a).shown).filter (fun n => ((shown 1 none).chain n).state != .absent) = some 0
      ∧ ((shown 1 (some 0)).group .a).holder = some 0 ∧ ((shown 0 (some 0)).group .a).shown = none := by decide +kernel

theorem witness_SetGroupMapsAndDerives :
    let m : Vector (Option ChainNo) 4 := ⟨#[some 0, none, none, some 7], rfl⟩
    (openAt 9).deskReady = true ∧ ¬ ((3 : Byte) = 1 ∨ (3 : Byte) = 2) ∧ 8 < (9 : Byte).toNat
      ∧ ¬ [(1 : Byte), 0, 1, 0].Pairwise (fun x y => x = y → x = 0)
      ∧ [(1 : Byte), 0, 2, 0].Pairwise (fun x y => x = y → x = 0)
      ∧ groupOfCode 2 = some .b
      ∧ [mapEntry 1, mapEntry 0, mapEntry 0, mapEntry 8] = m.toList.map some ∧ hasDuplicate m.toList = false
      ∧ ((openAt 9).group .b).inFlight = none
      ∧ (∀ n ∈ allChains, ((openAt 9).group (GroupId.other .b)).inputOf n = none)
      ∧ ((({ openAt 9 with groupA := { map := m } } : State).group .a).inputOf 7).isSome = true
      ∧ (({ openAt 9 with groupB := { inFlight := some ⟨3, 0, 0, none⟩ } } : State).group .b).inFlight.isSome = true := by
  decide +kernel

theorem witness_SetChainConfiguresOrDisables :
    firedBank.deskReady = true ∧ (0 : Byte).toNat < 1 ∧ 8 < (9 : Byte).toNat ∧ 2 ≤ (2 : Byte).toNat
      ∧ indexOf 8 8 = some 7 ∧ indexOf 8 1 = some 0 ∧ yesNo 1 = some true ∧ yesNo 0 = some false
      ∧ cadenceOf 0 = some .twoTwo ∧ cadenceOf 1 = some .twoThree ∧ (firedBank.chain 0).config.enabled = true
      ∧ (firedBank.chain 0).config.cadence = .twoTwo ∧ firedBank.cues.swapPending = false
      ∧ (firedBank.chain 0).state ≠ .atSpeed ∧ ((withChain firedBank 0 { state := .atSpeed }).chain 0).state = .atSpeed
      ∧ ((withChain firedBank 7 { config := { enabled := false } }).chain 7).config.enabled = false
      ∧ bankSound firedBank.cues.live = true
      ∧ (firedBank.liveCue 3).map (fun c => (c.runtime.state, c.fields.chain)) = some (.fired, 0) := by decide +kernel

theorem witness_ClearFaultRederivesTheState :
    (brokenChain true).deskReady = true ∧ (0 : Byte).toNat < 1 ∧ 8 < (9 : Byte).toNat
      ∧ indexOf 8 2 = some 1 ∧ ((brokenChain true).chain 1).state = .faulted
      ∧ ((brokenChain true).chain 1).reported.brk = true ∧ ((brokenChain false).chain 1).reported.brk = false
      ∧ ((brokenChain false).chain 1).reported.gate = false ∧ ((brokenChain false).chain 1).reported.lamp ≠ .failed
      ∧ ((openAt 9).chain 1).state ≠ .faulted := by decide +kernel

theorem witness_SetPermitReplacesTheTable :
    (openAt 9).deskReady = true ∧ indexOf 8 8 = some 7 ∧ conditionOf 0 = some .always ∧ conditionOf 31 = some (.watch 15)
      ∧ conditionOf 10 = none ∧ conditionOf 32 = none ∧ indexOf 8 0 = none ∧ indexOf 8 9 = none
      ∧ (cueIn .armed { id := 3, chain := 0, kind := .mark, release := .auto }).fields.permit = none
      ∧ (cueIn .armed { id := 3, chain := 0, kind := .mark, release := .auto, permit := some 7 }).fields.permit = some 7 := by
  decide +kernel

theorem witness_WindowsAreSetInOrderAndCleared :
    (openAt 9).deskReady = true ∧ (0 : Byte).toNat < 1 ∧ 16 < (17 : Byte).toNat ∧ 8 < (9 : Byte).toNat
      ∧ (0x80 : Byte).toNat ≤ 0x80 ∧ (0x80 : Byte) ≠ 0x01 ∧ 0x87 < (0x88 : Byte).toNat
      ∧ indexOf 16 16 = some 15 ∧ indexOf 8 1 = some 0 ∧ effectOf 1 = some .mark
      ∧ effectOf 0x87 = some (.mask true true true) := by decide +kernel

theorem witness_LimitThresholdAndRehearseAreSet :
    (openAt 9).deskReady = true ∧ ({ openAt 9 with cues := { rehearse := true } } : State).deskReady = true
      ∧ 2 ≤ (2 : Byte).toNat ∧ 2 ≤ (255 : Byte).toNat := by decide +kernel

theorem witness_RehearseWithdrawsWaitingSets :
    let s := { firedBank with round := { firedBank.round with sets := [{ cue := 3, telegrams := [] }] } }
    s.deskReady = true ∧ s.cues.rehearse = false ∧ s.cues.swapPending = false ∧ bankSound s.cues.live = true
      ∧ s.setWaits 3 = true ∧ (s.liveCue 3).map (fun c => c.runtime.state) = some .fired := by decide +kernel

theorem witness_SetWatchPutsItAtRest :
    (openAt 9).deskReady = true ∧ (0 : Byte).toNat < 1 ∧ 16 < (17 : Byte).toNat
      ∧ indexOf 16 16 = some 15 ∧ (watchOf 15 1 8 30 0xFF 4 3 0xFFFF).isSome = true
      ∧ (15 : WatchNo) ≤ 15 ∧ signalOf 31 = some (.watch 15) ∧ (watchOf 15 2 8 30 0xFF 4 3 0xFFFF).isNone = true
      ∧ (openAt 9).watches.watches[(15 : WatchNo)].output = false
      ∧ ({ openAt 9 with watches := { watches := Vector.replicate 16 { output := true } } }
          : State).watches.watches[(15 : WatchNo)].output = true := by decide +kernel

/-- A cascade from the watch's own number is refused as a qualifier too, and SET WATCH withdraws the alarm of a true output (R155). -/
theorem test_set_watch_cascade_and_withdrawal :
    let s : State := { openAt 9 with watches := { watches := Vector.replicate 16 { output := true } } }
    let raised := s.raise (srcWatch 2) { field := 9 }
    lastOutcome (after (.setWatch [3, 1, 1, 1, 18, 1, 1, 5, 0]) s) = some (some .badField)
      ∧ raised.alarms.isPending (srcWatch 2) = true
      ∧ (after (.setWatch [3, 1, 1, 1, 17, 1, 1, 5, 0]) raised).alarms.isPending (srcWatch 2) = false := by decide +kernel

/-- Count 0, limit − 1 and the limit, with and without a selected edge. -/
theorem witness_WatchModesCountAsStated :
    let w (m : WatchMode) (out : Bool) (n : Nat) : Watch :=
      { mode := m, edge := .rise, limit := 255, count := n, output := out, previous := some false }
    1 ≤ (w .gap false 254).limit ∧ (w .gap false 254).count < (w .gap false 254).limit
      ∧ (w .gap true 255).count = (w .gap true 255).limit
      ∧ selectedEdge .rise (some false) true = true ∧ selectedEdge .rise (some false) false = false
      ∧ (w .delay true 0).output = true ∧ delayed .rise true = true ∧ delayed .rise false = false
      ∧ (w .oneshot false 0).output = false ∧ (w .oneshot true 254).output = true
      ∧ ({ w .gap false 0 with previous := none } : Watch).previous = none
      ∧ ({ w .gap false 0 with edge := .fall } : Watch).edge = .fall
      ∧ ({ w .gap false 0 with edge := .both } : Watch).edge = .both := by decide

/-- A watch whose output rises, and one whose output falls. -/
theorem witness_WatchLimitChangesTheOutput :
    let s (m : WatchMode) (out : Bool) : State := { openAt 9 with watches :=
      { watches := Vector.replicate 16 { enabled := true, signal := .takeLine, mode := m, limit := 1, output := out,
                                          previous := some false } } }
    (s .gap false).reachesLimit (s .gap false).watches.watches[15] = true
      ∧ (s .oneshot true).reachesLimit (s .oneshot true).watches.watches[0] = true := by decide +kernel

/-- A tie on the level between 20 and 30, and no candidate at all. -/
theorem witness_SelectionTakesTheMostUrgent :
    (nesting [30, 20, 7] []).alarms.mostUrgent = some 20 ∧ (nesting [] []).alarms.mostUrgent = none := by decide +kernel

/-- A top entry with a source that may enter behind it, and one with none that may; an entry beneath; a number above 41. -/
theorem witness_AcknowledgeRemovesTheTopOnly :
    let s := nesting [30, 7] [(20, 4), (7, 6)]
    let left : AlarmUnit := { s.alarms with inService := s.alarms.inService.drop 1 }
    s.deskReady = true ∧ sourceOf 41 = some 41 ∧ sourceOf 7 = some 7 ∧ s.alarms.inService.head?.map Entry.source = some 20
      ∧ left.mostUrgent = some 30 ∧ left.inService.map Entry.level = [6] ∧ left.level 30 < 6
      ∧ (s.alarms.pending[(30 : Source)]).isSome = true ∧ (nesting [] []).alarms.mostUrgent = none
      ∧ s.alarms.isInService 7 = true ∧ s.alarms.isInService 41 = false ∧ 42 ≤ (42 : Byte).toNat := by decide +kernel

/-- The bounds of source and mask; a pending source that the new setting lets enter an empty list, and one it does not let enter. -/
theorem witness_SetAlarmReplacesTheSetting :
    let lets (entries : List (Source × Level)) (level : Level) : AlarmUnit :=
      { (nesting [30] entries).alarms with
        settings := (nesting [30] entries).alarms.settings.set 30 { level := level, masked := false } }
    (openAt 9).deskReady = true ∧ sourceOf 0 = some srcAirFault ∧ sourceOf 41 = some 41 ∧ (41 : Source) ≠ srcAirFault
      ∧ yesNo 1 = some true ∧ 42 ≤ (42 : Byte).toNat ∧ 2 ≤ (2 : Byte).toNat
      ∧ (lets [] 7).mostUrgent = some 30 ∧ (lets [] 7).inService.isEmpty = true ∧ (lets [(20, 4)] 3).mostUrgent = some 30
      ∧ (lets [(20, 4)] 3).level 30 < 4 ∧ ¬ (lets [(20, 4)] 4).level 30 < 4
      ∧ ((nesting [30] []).alarms.pending[(30 : Source)]).isSome = true := by decide +kernel

/-- WATCH 5 set to level 3 enters over an entry of level 4, and at level 4 it stays pending (R163, R167). -/
theorem test_set_alarm_selects :
    inServiceOf (after (.setAlarm [30, 3, 0]) (nesting [30] [(20, 4)])) = [(30, 3), (20, 4)]
      ∧ pendingOf (after (.setAlarm [30, 4, 0]) (nesting [30] [(20, 4)])) = [30]
      ∧ lastOutcome (after (.setAlarm [42, 3, 0]) (openAt 9)) = some (some .badField)
      ∧ lastOutcome (after (.setAlarm [5, 3, 2]) (openAt 9)) = some (some .badField) := by decide +kernel

/-- The store at 495 and 504 cells; the almost-full flag about to rise at 450, about to fall, and standing. -/
theorem witness_SnapshotIsTakenWholeOrNotAtAll :
    let p (n : Nat) : State := { storeOf n with snaps := { (storeOf n).snaps with
      settings := { chainMask := 0xFF, periodic := true, dwell := 3 }, dwellCount := 2 } }
    let flagged (n : Nat) : State := { storeOf n with snaps := { (storeOf n).snaps with almostFull := true } }
    (storeOf 55).deskReady = true ∧ (storeOf 55).snapshotFits = true ∧ (storeOf 56).snapshotFits = false
      ∧ (p 55).snaps.dwellReached = true ∧ (p 55).snapshotFits = true ∧ (p 56).snaps.dwellReached = true
      ∧ (p 56).snapshotFits = false ∧ (after (.snap []) (storeOf 49)).snaps.almostFull = true
      ∧ (after (.snap []) (flagged 1)).snaps.almostFull = false ∧ (after (.snap []) (storeOf 1)).snaps.almostFull = false
      ∧ (storeOf 50).snaps.settings.almostFull ≤ cellsHeld (storeOf 50).snaps.store
      ∧ ¬ (flagged 1).snaps.settings.almostFull ≤ cellsHeld (flagged 1).snaps.store := by decide +kernel

theorem witness_SetSnapshotReplacesSettings :
    (storeOf 1).deskReady = true ∧ 8 ≤ (8 : Byte).toNat ∧ (7 : Byte).toNat < 8
      ∧ (0xFE : Byte) ≠ (storeOf 1).snaps.settings.chainMask ∧ (0xFF : Byte) = (storeOf 1).snaps.settings.chainMask
      ∧ (storeOf 1).snaps.readout.state ≠ .sending ∧ (after (.readSnapshots [1]) (storeOf 1)).snaps.readout.state = .sending
      ∧ (after (.readSnapshots [1]) (storeOf 1)).deskReady = true ∧ (storeOf 1).snaps.almostFull = false
      ∧ (9 : Nat) ≤ cellsHeld (storeOf 1).snaps.store ∧ ¬ 10 ≤ cellsHeld (storeOf 1).snaps.store
      ∧ (after (.snap []) (storeOf 49)).snaps.almostFull = true ∧ (after (.snap []) (storeOf 49)).deskReady = true := by
  decide +kernel

/-- A changed mask in the middle of a readout: CANCELLING, nothing owed, the telegram number kept (R186). -/
theorem test_mask_change_cancels_readout :
    let s := after (.readSnapshots [1]) (storeOf 2)
    let sent : State := { s with snaps := { s.snaps with readout := { s.snaps.readout with number := 7, nextCell := 5 } } }
    let t := after (.setSnapshot [0, 1, 0, 0, 0xFE, 9, 0]) sent
    t.snaps.readout.state = .cancelling ∧ t.snaps.readout.owed = 0 ∧ t.snaps.readout.number = 7 ∧ t.snaps.store = [] := by
  decide +kernel

/-- Idle and busy; a readout in the middle of a head snapshot, one with no cells remaining, one cancelled; 5, 6, 10 and 11
characters of space. -/
theorem witness_ReadoutStartsWhenIdle :
    let b (owed : Nat) (st : ReadoutState) : SnapshotBuffer :=
      { (storeOf 2).snaps with readout := { state := st, owed := owed, nextCell := 9 } }
    (storeOf 1).deskReady = true ∧ (storeOf 1).snaps.readout.state = .idle
      ∧ (after (.readSnapshots [1]) (storeOf 1)).snaps.readout.state ≠ .idle
      ∧ (after (.readSnapshots [1]) (storeOf 1)).deskReady = true
      ∧ (b 2 .sending).cellsRemaining.length = 10 ∧ (b 0 .sending).cellsRemaining = []
      ∧ (b 0 .cancelling).readout.state = .cancelling ∧ min 4 (min 10 ((10 - 6) / 5)) = 0
      ∧ 0 < min 4 (min 10 ((11 - 6) / 5)) := by decide +kernel

theorem witness_BadCommandsAreRefusedOrDropped :
    (openAt 9).deskReady = true ∧ parameterCount 0x09 = none ∧ parameterCount 0xFF = none ∧ parameterCount 0x01 = some 18
      ∧ ([] : List Byte).length ≠ 18 ∧ deskRows.length = 34
      ∧ (∀ row ∈ deskRows, (parameterCount row.1).isSome = true) ∧ State.reset.receiving = true
      ∧ State.reset.windowOpen = false ∧ (after .rstAssert (openAt 9)).receiving = false
      ∧ ({ openAt 9 with round := { (openAt 9).round with replies := List.replicate 16 { selector := 0, field := 0 } } }
          : State).inWindow = true := by decide +kernel

/-- A LIVE bank with a FIRED cue and so many replies waiting. -/
def crowded (n : Nat) : State :=
  { firedBank with round := { firedBank.round with replies := List.replicate n { selector := 0, field := 0 } } }

/-- Room for one reply more: a good key of two parts is BUSY, a bad key BAD FIELD before the room is tested (R191, R196). -/
theorem test_read_room :
    lastOutcome (after (.readChain [1]) (crowded 15)) = some (some .busy)
      ∧ lastOutcome (after (.readChain [9]) (crowded 15)) = some (some .badField)
      ∧ lastOutcome (after (.readCue [1, 3, 0]) (crowded 14)) = some none := by decide +kernel

theorem witness_ReadsOnlyQueueReplies :
    firedBank.deskReady = true ∧ firedBank.round.replies.length < 15 ∧ groupOfCode 2 = some .b ∧ indexOf 16 16 = some 15
      ∧ indexOf 8 8 = some 7 ∧ bankOf 1 = some .live ∧ (firedBank.bank .live).length ≤ 6 ∧ sourceOf 41 = some 41
      ∧ goodId (word 3 0) = true ∧ (findCue (firedBank.bank .live) (word 3 0)).isSome = true
      ∧ firedBank.windows[(15 : WindowNo)] = none ∧ firedBank.round.replies.length < 14
      ∧ (presetOf 64).round.replies.length + max 1 ((((presetOf 64).bank .preset).length + 5) / 6) ≤ 16
      ∧ firedBank.alarms.isInService 41 = false ∧ (0 : Byte).toNat < 1 ∧ 8 < (9 : Byte).toNat ∧ 16 < (17 : Byte).toNat
      ∧ ¬ ((0 : Byte) = 1 ∨ (0 : Byte) = 2) ∧ 42 ≤ (42 : Byte).toNat ∧ (42 : Byte) ≠ 0xFF ∧ ¬ (word 0xE8 0x03).toNat ≤ 999
      ∧ (word 0xE7 0x03).toNat ≤ 999 ∧ (∀ c ∈ firedBank.bank .live, c.fields.id ≠ word 0xE7 0x03)
      ∧ (∃ c ∈ firedBank.bank .live, c.fields.id = word 3 0) ∧ (crowded 15).deskReady = true
      ∧ (crowded 15).round.replies.length = 15 ∧ 14 ≤ (crowded 14).round.replies.length
      ∧ 16 < (crowded 14).round.replies.length + max 1 ((((presetOf 13).bank .preset).length + 5) / 6)
      ∧ (inServiceOf (nesting [] [(41, 3)])).map (·.1) = [41] := by decide +kernel

theorem witness_ClearKeepsConfiguration :
    firedBank.deskReady = true ∧ firedBank.cues.live ≠ [] ∧ (openAt 9).deskReady = true ∧ (openAt 9).cues.live = [] := by
  decide +kernel

end Sys2Proof.Tests
end

section
/-! Positions of a chain: the fields of a frame and the successor of a position (section 2.2, R33). -/

namespace Sys2Proof.Proofs.Positions

open Sys2Proof Sys2Proof.Machine

/-- Each cadence has at most three fields in a frame (section 2.2), so a phase fits in two bits. -/
theorem fieldsOf_le_three (c : Cadence) (frame : Nat) : fieldsOf c frame ≤ 3 := by
  cases c with
  | twoTwo => simp [fieldsOf]
  | twoThree =>
    simp only [fieldsOf]
    split <;> omega

theorem successor_within_frame {c : Cadence} {frame : Frame} {phase : BitVec 2}
    (h : phase.toNat + 1 < fieldsOf c frame.toNat) : successor c frame phase = (frame, phase + 1) :=
  if_pos h

theorem successor_at_last_phase {c : Cadence} {frame : Frame} {phase : BitVec 2}
    (h : fieldsOf c frame.toNat ≤ phase.toNat + 1) : successor c frame phase = (frame + 1, 0) :=
  if_neg (Nat.not_lt.mpr h)

/-- The next phase does not wrap while the frame lasts. -/
theorem toNat_phase_add_one {c : Cadence} {frame : Nat} {phase : BitVec 2}
    (h : phase.toNat + 1 < fieldsOf c frame) : (phase + 1).toNat = phase.toNat + 1 := by
  have := fieldsOf_le_three c frame
  bv_omega

/-- Frame numbers wrap after 65535 (R33). -/
theorem toNat_frame_add_one (frame : Frame) :
    (frame + 1).toNat = if frame.toNat = 65535 then 0 else frame.toNat + 1 := by
  split <;> bv_omega

/-- Settles O22: while the frame lasts the next phase does not wrap in its two bits; at the last phase the frame number does, after
65535. -/
theorem successorStepsOneField : Obligations.SuccessorStepsOneField := by
  intro c frame phase
  constructor
  · intro hlasts
    rw [successor_within_frame hlasts]
    exact ⟨rfl, toNat_phase_add_one hlasts⟩
  · intro hlast
    rw [successor_at_last_phase hlast]
    exact ⟨toNat_frame_add_one frame, rfl⟩

end Sys2Proof.Proofs.Positions
end

section
/-! The banks of cues as the desk edits and swaps them (sections 4.2 and 4.3, R66 to R68, R71), and the swap-pending flag
while tasks are carried out. -/

namespace Sys2Proof.Proofs.CueBanks

open Sys2Proof Sys2Proof.Machine

/-! ### A desk command that is accepted, and one that answers nothing -/

/-- An accepted command is answered with the field count of its arrival, whatever its work has changed (R190). -/
theorem deskCommand_accepted {s t : State} (h : s.deskReady = true) (sel : Byte) (p : List Byte) (w : Handler)
    (key : Option (BitVec 16)) (hw : w p s.listening = some (t, accept key)) :
    s.deskCommand sel p (some w) = t.repliedAt s sel key [] := by
  rw [deskCommand_ready h, performDesk_one (s := s.listening) sel p w key none [] (deskReady_elim h).2.2 hw]
  rfl

/-- A command whose work answers nothing leaves what the work leaves. -/
theorem deskCommand_silent {s t : State} (h : s.deskReady = true) (sel : Byte) (p : List Byte) (w : Handler)
    (hw : w p s.listening = some (t, .silent)) : s.deskCommand sel p (some w) = t := by
  have hroom : s.listening.replyRoom ≠ 0 := Nat.sub_ne_zero_of_lt (deskReady_elim h).2.2
  rw [deskCommand_ready h]
  simp [State.performDesk, hroom, hw, State.queueAnswer]

/-! ### What each command of this family is -/

theorem exec_deleteCue (p : List Byte) (s : State) : exec (.deleteCue p) s = .next (s.deskCommand 0x02 p (some deleteCue)) := rfl

theorem exec_clearBank (p : List Byte) (s : State) : exec (.clearBank p) s = .next (s.deskCommand 0x03 p (some clearBank)) := rfl

theorem exec_swap (p : List Byte) (s : State) : exec (.swap p) s = .next (s.deskCommand 0x04 p (some swap)) := rfl

theorem exec_cancelSwap (p : List Byte) (s : State) :
    exec (.cancelSwap p) s = .next (s.deskCommand 0x05 p (some cancelSwap)) := rfl

theorem exec_clear (p : List Byte) (s : State) : exec (.clear p) s = .next (s.deskCommand 0x3E p (some clear)) := rfl

/-! ### DELETE CUE and CLEAR BANK (R62, R66, R67) -/

/-- The gate lets an edit of the PRESET bank (code 2) pass while no swap is pending (R62). -/
theorem editGate_preset {s : State} (h : s.cues.swapPending = false) : s.editGate 2 = none := by
  have hb : bankOf 2 = some .preset := rfl
  simp only [State.editGate, hb, h]
  rfl

theorem deleteCue_past_gate {s : State} (h : s.cues.swapPending = false) (i0 i1 : Byte) :
    deleteCue [2, i0, i1] s = some (s.deletePreset (word i0 i1)) := by
  simp only [deleteCue, editGate_preset h]

theorem clearBank_past_gate {s : State} (h : s.cues.swapPending = false) :
    clearBank [2] s = some (s.setPreset [], accept none) := by
  simp only [clearBank, editGate_preset h]

/-- Whether another cue of a bank follows the cue with an id (R66). -/
def followedByOther (bank : List Cue) (id : CueId) : Bool :=
  bank.any (fun c => c.fields.follow == some id && c.fields.id != id)

section Deleted

variable {s : State} {id : CueId}

theorem deletePreset_badId (hid : goodId id = false) : s.deletePreset id = (s, refuse (some id) .badField) := by
  simp [State.deletePreset, hid]

theorem deletePreset_unknown (hid : goodId id = true) (hu : findCue s.cues.preset id = none) :
    s.deletePreset id = (s, refuse (some id) .notFound) := by
  simp [State.deletePreset, hid, hu]

theorem deletePreset_followed (hid : goodId id = true) (hk : (findCue s.cues.preset id).isSome = true)
    (hf : followedByOther s.cues.preset id = true) : s.deletePreset id = (s, refuse (some id) .badReference) := by
  have hn : (findCue s.cues.preset id).isNone = false := by simpa using hk
  unfold followedByOther at hf
  simp only [State.deletePreset, hid, hn, hf, Bool.not_true, Bool.false_eq_true, if_false, if_true]

theorem deletePreset_removed (hid : goodId id = true) (hk : (findCue s.cues.preset id).isSome = true)
    (hf : followedByOther s.cues.preset id = false) :
    s.deletePreset id = (s.setPreset (s.cues.preset.filter (fun c => c.fields.id != id)), accept (some id)) := by
  have hn : (findCue s.cues.preset id).isNone = false := by simpa using hk
  unfold followedByOther at hf
  simp only [State.deletePreset, hid, hn, hf, Bool.not_true, Bool.false_eq_true, if_false]

end Deleted

/-- Settles O30: past the gate the outcome is that of `deletePreset`, taken apart by the tests of R66 in their order. -/
theorem deleteAndClearEditPreset : Obligations.DeleteAndClearEditPreset := by
  intro s i0 i1 hready hswap id u followed
  have hwork : deleteCue [2, i0, i1] u = some (u.deletePreset id) := deleteCue_past_gate (s := u) hswap i0 i1
  have refused (r : Reason) (h : u.deletePreset id = (u, refuse (some id) r)) :
      exec (.deleteCue [2, i0, i1]) s = .next (u.answered 0x02 (some id) (some r) []) := by
    rw [exec_deleteCue, deskCommand_refused hready _ _ _ _ r (hwork.trans (congrArg some h))]
  refine ⟨fun hid => refused _ (deletePreset_badId hid), fun hid hu => refused _ (deletePreset_unknown hid hu),
    fun hid hk hf => refused _ (deletePreset_followed hid hk hf), fun hid hk hf => ?removed, ?cleared⟩
  case removed =>
    rw [exec_deleteCue,
      deskCommand_accepted hready _ _ _ _ (hwork.trans (congrArg some (deletePreset_removed hid hk hf)))]
    rfl
  case cleared =>
    rw [exec_clearBank, deskCommand_accepted hready _ _ _ _ (clearBank_past_gate (s := s.listening) hswap)]
    rfl

/-! ### SWAP (R68) -/

theorem swapFree_iff (s : State) :
    s.swapFree = true ↔ ∀ c ∈ s.cues.live, c.runtime.state ≠ .withheld ∧ c.runtime.state ≠ .fired := by
  simp [State.swapFree, Cue.holdsSwap]

theorem swap_busy {s : State} (h : s.cues.swapPending = true) : swap [] s = some (s, refuse none .busy) := by
  simp [swap, h]

theorem swap_set_pending {s : State} (h : s.cues.swapPending = false)
    (held : ∃ c ∈ s.cues.live, c.runtime.state = .withheld ∨ c.runtime.state = .fired) :
    swap [] s = some ({ s with cues := { s.cues with swapPending := true } }, accept none) := by
  have hfree : ¬ s.swapFree = true := by
    rw [swapFree_iff]
    obtain ⟨c, hc, hs⟩ := held
    exact fun free => hs.elim (free c hc).1 (free c hc).2
  simp [swap, h, State.swapBanks, hfree]

theorem swap_taken {s : State} (h : s.cues.swapPending = false)
    (free : ∀ c ∈ s.cues.live, c.runtime.state ≠ .withheld ∧ c.runtime.state ≠ .fired) :
    swap [] s = some (s.takeSwap.carryOut s.takeSwap.eligibleAll, accept none) := by
  simp [swap, h, State.swapBanks, (swapFree_iff s).mpr free]

theorem fullReset_swapPending (s : State) : s.fullReset.cues.swapPending = false := rfl

/-- Settles O31: BUSY, set pending or taken, by the flag and by what the LIVE bank holds. -/
theorem swapIsTakenOrSetPending : Obligations.SwapIsTakenOrSetPending := by
  intro s hready u
  refine ⟨fun hp => ?busy, fun hp held => ?pending, fun hp free => ?taken, fullReset_swapPending s⟩
  case busy => rw [exec_swap, deskCommand_refused hready _ _ _ _ _ (swap_busy (s := s.listening) hp)]
  case pending =>
    rw [exec_swap, deskCommand_accepted hready _ _ _ _ (swap_set_pending (s := s.listening) hp held)]
    rfl
  case taken => rw [exec_swap, deskCommand_accepted hready _ _ _ _ (swap_taken (s := s.listening) hp free)]

/-! ### No task sets the swap-pending flag

Only SWAP sets it (R68). Unlike `Moved`, this holds in banks where an id stands twice too. -/

/-- The flag stands after a task as it stood before, or clear. -/
def SetsNoSwap (s : State) (e : Effect) : Prop :=
  e.state.cues.swapPending = s.cues.swapPending ∨ e.state.cues.swapPending = false

theorem SetsNoSwap.quiet (s : State) : SetsNoSwap s s.quiet := .inl rfl

/-- A change of a cue's state keeps the flag, or takes the swap, which clears it (R69, R77). -/
theorem SetsNoSwap.of_changed {s : State} {c : Cue} {st : CueState} {e : Effect} (h : Changed s c st e) : SetsNoSwap s e := by
  obtain ⟨_, _, _, hflag, _⟩ | ⟨_, u, _, _, _, _, hstate, _⟩ := h
  · exact .inl hflag
  · rw [SetsNoSwap, hstate]
    exact .inr rfl

theorem SetsNoSwap.of_acted {s : State} {c : Cue} {allowed : List CueState} {e : Effect} (h : Acted s c allowed e) :
    SetsNoSwap s e := by
  obtain ⟨_, _, hflag, _⟩ | ⟨_, _, _, hchanged⟩ := h
  · exact .inl hflag
  · exact .of_changed hchanged

section Tasks

variable (s : State) (c : Cue)

theorem failCue_setsNoSwap (r : CueRuntime) (cause : FailureCause) : SetsNoSwap s (s.failCue c r cause) :=
  .of_changed (failCue_changed s c r cause)

theorem abandonCue_setsNoSwap : SetsNoSwap s (s.abandonCue c) := .of_changed (abandonCue_changed s c)

theorem confirmCue_setsNoSwap : SetsNoSwap s (s.confirmCue c) := .of_changed (confirmCue_changed s c)

theorem doneAtOnce_setsNoSwap (b : Bool) : SetsNoSwap s (s.doneAtOnce c b) := .of_changed (doneAtOnce_changed s c b)

theorem withholdCue_setsNoSwap (reason : WithholdReason) : SetsNoSwap s (s.withholdCue c reason) := by
  unfold State.withholdCue
  split
  · exact .inl rfl
  · exact .of_changed
      (changed_of_writes c { c.runtime with state := .withheld, reason := reason, withholdCount := 0 } (by simp))

theorem decideCue_setsNoSwap : SetsNoSwap s (s.decideCue c) := by
  unfold State.decideCue
  split
  · exact withholdCue_setsNoSwap s c _
  · exact doneAtOnce_setsNoSwap s c _
  · split
    · exact doneAtOnce_setsNoSwap s c _
    · split
      · exact doneAtOnce_setsNoSwap s c _
      · exact .of_changed (fireCue_changed s c)

theorem dueCue_setsNoSwap (due : Field) : SetsNoSwap s (s.dueCue c due) :=
  decideCue_setsNoSwap (s.setRuntime c.fields.id { c.runtime with dueField := some due })
    { c with runtime := { c.runtime with dueField := some due } }

theorem evaluateCue_setsNoSwap : SetsNoSwap s (s.evaluateCue c) := by
  unfold State.evaluateCue
  dsimp only
  split
  · exact .quiet s
  · split
    · split
      · split
        · exact failCue_setsNoSwap ..
        · exact dueCue_setsNoSwap ..
      · split
        · exact .inl rfl
        · exact .quiet s
    · exact .quiet s

theorem afterArming_setsNoSwap : SetsNoSwap s (s.afterArming c) := by
  unfold State.afterArming
  split
  · exact dueCue_setsNoSwap ..
  · exact .quiet s
  · exact evaluateCue_setsNoSwap s c
  · exact evaluateCue_setsNoSwap s c
  · exact .quiet s
  · exact .quiet s

theorem computeEligible_setsNoSwap (n : ChainNo) : SetsNoSwap s (s.computeEligible n) := by
  unfold State.computeEligible
  split
  · exact .quiet s
  · next c _ =>
    split
    · exact afterArming_setsNoSwap (s.armed c) { c with runtime := { c.runtime with state := .armed } }
    · exact .quiet s

theorem actOnTake_setsNoSwap : SetsNoSwap s (s.actOnTake c) := by
  unfold State.actOnTake
  split
  · split
    · exact dueCue_setsNoSwap ..
    · exact evaluateCue_setsNoSwap s c
  · exact decideCue_setsNoSwap s c
  all_goals exact .quiet s

theorem recheckCue_setsNoSwap : SetsNoSwap s (s.recheckCue c) := by
  unfold State.recheckCue
  split
  · dsimp only
    split
    · exact failCue_setsNoSwap ..
    · exact .inl rfl
  · exact decideCue_setsNoSwap s c
  · exact decideCue_setsNoSwap s c

theorem followCue_setsNoSwap (f : Field) : SetsNoSwap s (s.followCue c f) := by
  unfold State.followCue
  split
  · exact .quiet s
  · split
    · dsimp only
      split
      · exact failCue_setsNoSwap ..
      · exact dueCue_setsNoSwap ..
    · exact .quiet s

theorem countConfirm_setsNoSwap (f : Field) : SetsNoSwap s (s.countConfirm c f) := by
  unfold State.countConfirm
  split
  · split
    · dsimp only
      split
      · exact failCue_setsNoSwap ..
      · exact .inl rfl
    · exact .quiet s
  · split
    · exact failCue_setsNoSwap ..
    · exact .quiet s

end Tasks

theorem onCue_setsNoSwap (s : State) (id : CueId) (states : List CueState) (act : Cue → Effect)
    (h : ∀ c, SetsNoSwap s (act c)) : SetsNoSwap s (s.onCue id states act) := by
  unfold State.onCue
  split
  · exact .quiet s
  · split
    · exact h _
    · exact .quiet s

theorem runTask_setsNoSwap (s : State) (t : Task) : SetsNoSwap s (s.runTask t) := by
  cases t <;> unfold State.runTask
  case eligible n => exact computeEligible_setsNoSwap s n
  all_goals refine onCue_setsNoSwap _ _ _ _ fun c => ?_
  case abandonFollower => exact abandonCue_setsNoSwap s c
  case abandonStopped => exact abandonCue_setsNoSwap s c
  case abandonNamed => exact abandonCue_setsNoSwap s c
  case evaluate =>
    split
    · exact evaluateCue_setsNoSwap s c
    · exact .quiet s
  case taken => exact actOnTake_setsNoSwap s c
  case recheck => exact recheckCue_setsNoSwap s c
  case follow =>
    split
    · exact followCue_setsNoSwap ..
    · exact .quiet s
  case fail => exact failCue_setsNoSwap ..
  case confirm => exact confirmCue_setsNoSwap s c
  case judgeArrival => exact .of_acted (judgeByArrival_acted ..)
  case judgeEntry =>
    split
    · exact .of_acted (judgeByEntry_acted ..)
    · exact .quiet s
  case countConfirm => exact countConfirm_setsNoSwap ..

/-- A clear flag stays clear while tasks are carried out. -/
theorem carryOut_swapPending_clear {s : State} (h : s.cues.swapPending = false) (tasks : List Task) :
    (s.carryOut tasks).cues.swapPending = false :=
  carryOut_induct (fun u => u.cues.swapPending = false)
    (fun u t hu => (runTask_setsNoSwap u t).elim (fun kept => kept.trans hu) id) s tasks h

/-! ### CANCEL SWAP and CLEAR (R71, R75) -/

/-- Settles O33: CLEAR clears the flag before its tasks, and no task sets it again. -/
theorem cancelSwapClearsTheFlag : Obligations.CancelSwapClearsTheFlag := by
  intro s
  refine ⟨fun hready => ?cancel, fun hready => ?clear, fullReset_swapPending s⟩
  case cancel =>
    rw [exec_cancelSwap, deskCommand_accepted hready _ _ cancelSwap none rfl]
    rfl
  case clear =>
    rw [exec_clear, deskCommand_silent hready _ _ clear rfl]
    exact ⟨_, rfl, carryOut_swapPending_clear rfl _⟩

end Sys2Proof.Proofs.CueBanks
end

section
/-! The cue engine's tasks are all carried out, and the banks stay well formed while they are (R59, R61, R70, R72, R77). -/

namespace Sys2Proof.Proofs.Tasks

open Sys2Proof Sys2Proof.Machine

/-! ### The well-formedness of the banks in terms of briefs -/

theorem sound_iff (s : State) :
    s.cues.sound = true ↔ (s.briefs.map Brief.id).Nodup ∧ (s.cues.preset.map (fun c => c.fields.id)).Nodup
      ∧ s.briefs.length ≤ 64 ∧ s.cues.preset.length ≤ 64 := by
  rw [briefs_ids]
  simp [CueEngine.sound, bankSound, State.briefs, and_assoc]

/-- Of two cues of one chain, the later is ARMED or WITHHELD only when the earlier is finished (R72). -/
def Behind (before b : Brief) : Prop :=
  before.chain = b.chain → b.state = .armed ∨ b.state = .withheld → before.state.finished = true

/-- PRESET cues have their entry values (R61). -/
def AtEntry (bank : List Cue) : Prop := ∀ c ∈ bank, c.runtime = {}

theorem inOrder_iff (s : State) : s.cues.inOrder = true ↔ s.briefs.Pairwise Behind ∧ AtEntry s.cues.preset := by
  simp [CueEngine.inOrder, headed, State.briefs, List.pairwise_map, Behind, Cue.brief, AtEntry]

theorem atEntry_waiting {bank : List Cue} (h : AtEntry bank) : ∀ c ∈ bank, c.runtime.state = .waiting :=
  fun c hc => by rw [h c hc]

/-- A bank of WAITING cues is headed. -/
theorem behind_of_waiting {l : List Brief} (h : ∀ b ∈ l, b.state = .waiting) : l.Pairwise Behind :=
  List.Pairwise.imp_of_mem (R := fun _ _ => True) (fun _ hb _ _ hs => by simp [h _ hb] at hs)
    (List.pairwise_of_forall fun _ _ => trivial)

/-! ### One change of state and the banks -/

theorem setState_length (l : List Brief) (id : CueId) (st : CueState) : (setState l id st).length = l.length := by
  simp [setState]

/-- A change of state that keeps a finished cue finished, and brings no cue of the bank up as ARMED or WITHHELD anew, keeps the
bank headed. -/
theorem setState_behind {l : List Brief} {c : Brief} {st : CueState} (hn : (l.map Brief.id).Nodup) (hc : c ∈ l)
    (hp : l.Pairwise Behind) (hfin : c.state.finished = true → st.finished = true)
    (hup : st = .armed ∨ st = .withheld → c.state = .armed ∨ c.state = .withheld) :
    (setState l c.id st).Pairwise Behind := by
  refine List.pairwise_map.mpr (hp.imp_of_mem fun {a b} ha hb h => ?_)
  have one {x : Brief} (hx : x ∈ l) (e : x.id = c.id) : x = c := brief_unique hn hx hc e
  intro hch hs
  have hch' : a.chain = b.chain := by split at hch <;> split at hch <;> exact hch
  have hb' : b.state = .armed ∨ b.state = .withheld := by
    split at hs
    · next e => exact one hb e ▸ hup hs
    · exact hs
  have ha' := h hch' hb'
  split
  · next e => exact hfin (one ha e ▸ ha')
  · exact ha'

theorem canBecome_finished {x st : CueState} (h : st ∈ canBecome x) : x.finished = true → st.finished = true := by
  cases x <;> cases st <;> simp_all [canBecome, CueState.finished]

theorem canBecome_up {x st : CueState} (h : st ∈ canBecome x) :
    st = .armed ∨ st = .withheld → x = .armed ∨ x = .withheld := by
  cases x <;> cases st <;> simp_all [canBecome]

theorem takeSwap_sound {u : State} (h : u.cues.sound = true) : u.takeSwap.cues.sound = true := by
  simp only [CueEngine.sound, Bool.and_eq_true, bankSound, State.takeSwap, List.map_map, List.length_map] at h ⊢
  obtain ⟨⟨⟨hl, hp⟩, hll⟩, hpl⟩ := h
  exact ⟨⟨⟨hp, hl⟩, hpl⟩, hll⟩

theorem takeSwap_inOrder {u : State} (h : AtEntry u.cues.preset) : u.takeSwap.cues.inOrder = true := by
  rw [inOrder_iff]
  refine ⟨behind_of_waiting fun b hb => ?_, fun c hc => ?_⟩
  · obtain ⟨c, hc, rfl⟩ := List.mem_map.mp hb
    exact atEntry_waiting h c hc
  · obtain ⟨d, -, rfl⟩ := List.mem_map.mp hc
    rfl

/-- What one task keeps of the banks: no id twice, at most 64 cues, and, where it held, the order of R72 and the entry values. -/
def BanksKept (s t : State) : Prop :=
  (s.cues.sound = true → t.cues.sound = true)
    ∧ (s.cues.sound = true → s.cues.inOrder = true → t.cues.inOrder = true)

theorem BanksKept.refl (s : State) : BanksKept s s := ⟨id, fun _ => id⟩

theorem BanksKept.trans {s t u : State} (h : BanksKept s t) (k : BanksKept t u) : BanksKept s u :=
  ⟨fun a => k.1 (h.1 a), fun a b => k.2 (h.1 a) (h.2 a b)⟩

theorem BanksKept.of_briefs {s t : State} (hb : t.briefs = s.briefs) (hp : t.cues.preset = s.cues.preset) :
    BanksKept s t := by
  simp only [BanksKept, sound_iff, inOrder_iff, hb, hp]
  exact ⟨id, fun _ => id⟩

theorem setState_banksKept {s t : State} {c : Cue} {st : CueState} (hc : c ∈ s.cues.live)
    (hfin : c.runtime.state.finished = true → st.finished = true)
    (hup : st = .armed ∨ st = .withheld → c.runtime.state = .armed ∨ c.runtime.state = .withheld)
    (hb : t.briefs = setState s.briefs c.fields.id st) (hp : t.cues.preset = s.cues.preset) : BanksKept s t := by
  simp only [BanksKept, sound_iff, inOrder_iff, hb, hp, setState_ids, setState_length]
  exact ⟨id, fun hs ho => ⟨setState_behind hs.1 (brief_mem hc) ho.1 hfin hup, ho.2⟩⟩

theorem takeSwap_banksKept (u : State) : BanksKept u u.takeSwap :=
  ⟨takeSwap_sound, fun _ ho => takeSwap_inOrder ((inOrder_iff u).mp ho).2⟩

theorem changed_banksKept {s : State} {c : Cue} {st : CueState} {e : Effect} (hc : c ∈ s.cues.live)
    (hst : st ∈ canBecome c.runtime.state) (h : Changed s c st e) : BanksKept s e.state := by
  have change {t : State} := setState_banksKept (t := t) hc (canBecome_finished hst) (canBecome_up hst)
  obtain ⟨-, hb, hp, -, -⟩ | ⟨-, u, hb, hp, -, -, hu, -⟩ := h
  · exact change hb hp
  · rw [hu]
    exact (change hb hp).trans (takeSwap_banksKept u)

theorem moved_banksKept {s : State} {e : Effect} (h : Moved s e) : BanksKept s e.state := by
  obtain ⟨hb, hp, -⟩ | ⟨c, hc, st, hst, hch⟩ := h
  · exact .of_briefs hb hp
  · exact changed_banksKept hc hst hch

/-- The arming of a WAITING head keeps the banks: every cue of its chain before it is finished (R72). -/
theorem armed_banksKept {s : State} {n : ChainNo} {c : Cue} (hn : headOf s.cues.live n = some c)
    (hw : c.runtime.state = .waiting) : BanksKept s (s.armed c) := by
  obtain ⟨hp, front, back, hl, hf⟩ := List.find?_eq_some_iff_append.mp hn
  have hb : s.briefs = front.map Cue.brief ++ c.brief :: back.map Cue.brief := by simp [State.briefs, hl]
  have hcn : c.fields.chain = n := by simp_all
  have hpre : (s.armed c).cues.preset = s.cues.preset := rfl
  simp only [BanksKept, sound_iff, inOrder_iff, armed_briefs, setState_ids, setState_length, hpre]
  refine ⟨id, fun hs ho => ⟨?_, ho.2⟩⟩
  have hnd := hs.1
  have ho := ho.1
  have one {x : Brief} (hx : x ∈ s.briefs) (e : x.id = c.fields.id) : x = c.brief :=
    brief_unique hnd hx (brief_mem (List.mem_of_find?_eq_some hn)) e
  rw [hb] at ho
  have split := List.pairwise_append.mp ho
  have away : ∀ x ∈ front.map Cue.brief ++ back.map Cue.brief, x.id ≠ c.fields.id := by
    intro x hx e
    rw [hb] at hnd
    rw [List.map_append, List.map_cons, List.nodup_middle] at hnd
    refine (List.nodup_cons.mp hnd).1 ?_
    rw [← List.map_append]
    exact List.mem_map.mpr ⟨x, hx, e⟩
  have same (l : List Brief) (hl : ∀ x ∈ l, x.id ≠ c.fields.id) : setState l c.fields.id .armed = l :=
    (List.map_congr_left fun x hx => if_neg (hl x hx)).trans (List.map_id l)
  have new : setState s.briefs c.fields.id .armed
      = front.map Cue.brief ++ { c.brief with state := .armed } :: back.map Cue.brief := by
    rw [hb]
    have h1 := same _ fun x hx => away x (List.mem_append_left _ hx)
    have h2 := same _ fun x hx => away x (List.mem_append_right _ hx)
    simp only [setState] at h1 h2 ⊢
    rw [List.map_append, List.map_cons, h1, h2]
    simp [Cue.brief]
  rw [new]
  refine List.pairwise_append.mpr ⟨split.1, List.pairwise_cons.mpr ⟨fun b hbk => ?_, (List.pairwise_cons.mp split.2.1).2⟩,
    fun a ha b hbm => ?_⟩
  · intro hch hst
    have := (List.pairwise_cons.mp split.2.1).1 b hbk hch hst
    simp [Cue.brief, hw, CueState.finished] at this
  · rcases List.mem_cons.mp hbm with rfl | hbm
    · intro hch _
      obtain ⟨d, hd, rfl⟩ := List.mem_map.mp ha
      have hch' : d.fields.chain = c.fields.chain := hch
      have := hf d hd
      simpa [hch', hcn, Cue.brief] using this
    · exact split.2.2 a ha b (List.mem_cons_of_mem _ hbm)

theorem runTask_banksKept {s : State} (h : s.cues.sound = true) (t : Task) : BanksKept s (s.runTask t).state := by
  rcases runTask_moved ((sound_iff s).mp h).1 t with hm | ⟨n, c, -, hn, hw, hm⟩
  · exact moved_banksKept hm
  · exact (armed_banksKept hn hw).trans (moved_banksKept hm)

/-- Carrying tasks out keeps the banks sound, and in order where they were. -/
theorem carryOut_banksKept (s : State) (tasks : List Task) : BanksKept s (s.carryOut tasks) := by
  by_cases hs : s.cues.sound = true
  · exact (carryOut_induct (fun u => u.cues.sound = true ∧ BanksKept s u)
      (fun u t hu => ⟨(runTask_banksKept hu.1 t).1 hu.1, hu.2.trans (runTask_banksKept hu.1 t)⟩) s tasks
      ⟨hs, .refl s⟩).2
  · exact ⟨fun h => absurd h hs, fun h => absurd h hs⟩

/-! ### The bound on the tasks of one event (log 36) -/

/-- The steps that a list of tasks can still take. -/
def stepsLeft (s : State) (tasks : List Task) : Nat := s.cues.width * s.cues.rank + tasks.length

/-- The changes of state that a bank can still make. -/
def rankOf (l : List Brief) : Nat := (l.map (fun b => b.state.rank)).sum

theorem bankRank_eq (s : State) : bankRank s.cues.live = rankOf s.briefs := by
  simp [bankRank, rankOf, State.briefs, Cue.brief, Function.comp_def]

theorem width_eq (s : State) : s.cues.width = s.briefs.length + s.cues.preset.length + 10 := by
  simp [CueEngine.width, State.briefs]

theorem rank_le_four (st : CueState) : st.rank ≤ 4 := by cases st <;> simp [CueState.rank]

theorem bankRank_le (bank : List Cue) : bankRank bank ≤ 4 * bank.length := by
  induction bank with
  | nil => simp [bankRank]
  | cons c rest ih =>
    have := rank_le_four c.runtime.state
    simp only [bankRank, List.map_cons, List.sum_cons, List.length_cons] at ih ⊢
    omega

theorem setState_of_absent {l : List Brief} {id : CueId} {st : CueState} (h : id ∉ l.map Brief.id) :
    setState l id st = l :=
  (List.map_congr_left fun x hx => if_neg fun e => h (List.mem_map.mpr ⟨x, hx, e⟩)).trans (List.map_id l)

/-- A change of one cue's state changes the rank of the bank by that of the cue. -/
theorem rankOf_setState {l : List Brief} (hn : (l.map Brief.id).Nodup) {c : Brief} (hc : c ∈ l) (st : CueState) :
    rankOf (setState l c.id st) + c.state.rank = rankOf l + st.rank := by
  induction l with
  | nil => cases hc
  | cons x l ih =>
    simp only [List.map_cons, List.nodup_cons] at hn
    rcases List.mem_cons.mp hc with rfl | hc
    · have := setState_of_absent (st := st) hn.1
      simp only [setState] at this
      simp only [rankOf, setState, List.map_cons, this, List.sum_cons, if_true]
      omega
    · have hx : x.id ≠ c.id := fun e => hn.1 (e ▸ List.mem_map_of_mem hc)
      have := ih hn.2 hc
      simp only [rankOf, setState, List.map_cons, List.sum_cons, hx, if_false] at this ⊢
      omega

theorem canBecome_rank {x st : CueState} (h : st ∈ canBecome x) : st.rank < x.rank := by
  cases x <;> cases st <;> simp_all [canBecome, CueState.rank]

theorem headsInOrder_length : ∀ (l : List Cue) (seen : List ChainNo), (headsInOrder l seen).length ≤ l.length
  | [], _ => by simp [headsInOrder]
  | c :: rest, seen => by
    rw [headsInOrder]
    split
    · exact (headsInOrder_length rest seen).trans (by simp)
    · simpa using headsInOrder_length rest (c.fields.chain :: seen)

theorem followersOf_length (live : List Cue) (id : CueId) : (followersOf live id).length ≤ live.length := by
  simpa [followersOf] using List.length_filter_le ..

/-- What one task leaves to be done: it brings nothing and leaves the rank, or it lowers the rank and brings fewer tasks than
the width. -/
def Progress (s : State) (e : Effect) : Prop :=
  e.state.cues.width = s.cues.width
    ∧ ((e.tasks = [] ∧ e.state.cues.rank = s.cues.rank)
      ∨ (e.state.cues.rank < s.cues.rank ∧ e.tasks.length ≤ s.cues.width))

theorem rank_eq (s : State) :
    s.cues.rank = rankOf s.briefs + if s.cues.swapPending then 4 * s.cues.preset.length + 1 else 0 := by
  rw [CueEngine.rank, bankRank_eq]

/-! ### Which cue a task writes -/

/-- The cue a task names and the states in which it acts on it; a computing of eligibility names none. -/
def named : Task → Option (CueId × List CueState)
  | .eligible _ => none
  | .abandonFollower id => some (id, [.waiting, .armed, .withheld])
  | .abandonStopped id => some (id, [.armed, .withheld, .fired])
  | .abandonNamed id => some (id, [.waiting, .armed, .withheld, .fired])
  | .evaluate id => some (id, [.armed])
  | .taken id => some (id, [.armed, .withheld])
  | .recheck id => some (id, [.withheld])
  | .follow id _ => some (id, [.armed])
  | .fail id _ | .confirm id | .judgeArrival id _ | .judgeEntry id _ _ | .countConfirm id _ => some (id, [.fired])

/-- A task that a change of state brings: an eligibility, or the abandonment of a follower (R77). -/
def Brought (t : Task) : Prop := (∃ n, t = .eligible n) ∨ ∃ id, t = .abandonFollower id

/-- What an acting on a cue leaves beside the cues: the placed list and the rehearse flag, the commanded part of every other chain
but for a dowser, every changeover in flight but its own, and under rehearse the waiting sets but for withdrawals (R70, R103,
R130). -/
structure Beside (f : CueFields) (s t : State) : Prop where
  placed : t.round.placed = s.round.placed
  rehearse : t.cues.rehearse = s.cues.rehearse
  sets : s.cues.rehearse = true → t.round.sets.Sublist s.round.sets
  commanded : ∀ n, n ≠ f.chain → (t.chain n).commanded.motion = (s.chain n).commanded.motion
    ∧ (t.chain n).commanded.lamp = (s.chain n).commanded.lamp
    ∧ (t.chain n).commanded.parkTarget = (s.chain n).commanded.parkTarget
  flight : ∀ g, (t.group g).inFlight = (s.group g).inFlight ∨ (t.group g).inFlight = none
    ∨ ∃ x, (t.group g).inFlight = some x ∧ x.cue = f.id

theorem Beside.refl (f : CueFields) (s : State) : Beside f s s :=
  ⟨rfl, rfl, fun _ => .refl _, fun _ _ => ⟨rfl, rfl, rfl⟩, fun _ => .inl rfl⟩

theorem Beside.trans {f : CueFields} {s t u : State} (h : Beside f s t) (k : Beside f t u) : Beside f s u where
  placed := k.placed.trans h.placed
  rehearse := k.rehearse.trans h.rehearse
  sets hr := (k.sets (h.rehearse.trans hr)).trans (h.sets hr)
  commanded n hn := by
    obtain ⟨a, b, c⟩ := h.commanded n hn
    obtain ⟨a', b', c'⟩ := k.commanded n hn
    exact ⟨a'.trans a, b'.trans b, c'.trans c⟩
  flight g := by
    rcases k.flight g with e | e | e
    · rw [e]; exact h.flight g
    · exact .inr (.inl e)
    · exact .inr (.inr e)

theorem Beside.of_alarms {f : CueFields} {s t : State} (h : AlarmsOnly s t) : Beside f s t where
  placed := h.placed
  rehearse := by rw [h.cues]
  sets _ := by rw [h.sets]
  commanded n _ := by simp [h.chain n]
  flight g := .inl (by rw [h.group g])

theorem Beside.setRuntime (f : CueFields) (s : State) (id : CueId) (r : CueRuntime) : Beside f s (s.setRuntime id r) :=
  ⟨rfl, rfl, fun _ => .refl _, fun _ _ => ⟨rfl, rfl, rfl⟩, fun g => by cases g <;> exact .inl rfl⟩

theorem Beside.withdrawSet (f : CueFields) (s : State) (id : CueId) : Beside f s (s.withdrawSet id) :=
  ⟨rfl, rfl, fun _ => List.filter_sublist, fun _ _ => ⟨rfl, rfl, rfl⟩, fun g => by cases g <;> exact .inl rfl⟩

theorem groupEndFlight_inFlight (r : GroupRecord) (id : CueId) :
    (r.endFlight id).inFlight = r.inFlight ∨ (r.endFlight id).inFlight = none := by
  unfold GroupRecord.endFlight
  split
  · split
    · exact .inr rfl
    · exact .inl rfl
  · exact .inl rfl

theorem Beside.endFlight (f : CueFields) (s : State) (c : Cue) : Beside f s (s.endFlight c) := by
  unfold State.endFlight
  split
  · refine ⟨rfl, rfl, fun _ => .refl _, fun _ _ => ⟨rfl, rfl, rfl⟩, fun g => ?_⟩
    cases g
    · exact (groupEndFlight_inFlight s.groupA c.fields.id).imp_right .inl
    · exact (groupEndFlight_inFlight s.groupB c.fields.id).imp_right .inl
  · exact .refl f s

theorem Beside.raiseLate (f : CueFields) (s : State) (c : Cue) : Beside f s (s.raiseLate c) := by
  unfold State.raiseLate
  split
  · exact .refl f s
  · exact .of_alarms (raise_alarmsOnly ..)

theorem Beside.ite {f : CueFields} {s t : State} (b : Bool) (h : Beside f s t) : Beside f s (if b then t else s) := by
  split
  · exact h
  · exact .refl f s

theorem Beside.lateAndSnapshot (f : CueFields) (s : State) (c : Cue) (r : CueRuntime) : Beside f s (s.lateAndSnapshot c r) :=
  (Beside.ite _ (.raiseLate f s c)).trans (.ite _ (.of_alarms (requestSnapshot_alarmsOnly ..)))

/-- Without rehearse a set may be queued. -/
theorem Beside.queueActions {f : CueFields} {s : State} (hr : s.cues.rehearse = false) (c : Cue) :
    Beside f s (s.queueActions c) := by
  have sets (t : State) (h : s.cues.rehearse = true) : t.round.sets.Sublist s.round.sets := by
    rw [hr] at h; cases h
  unfold State.queueActions
  split <;> exact ⟨rfl, rfl, sets _, fun _ _ => ⟨rfl, rfl, rfl⟩, fun g => by cases g <;> exact .inl rfl⟩

/-- A write of one commanded part: its own, or the dowser of another chain. -/
theorem Beside.setCommanded {f : CueFields} {s : State} {n : ChainNo} {x : Commanded}
    (h : n = f.chain ∨ ∃ y, x = { (s.chain n).commanded with shutter := y }) : Beside f s (s.setCommanded n x) := by
  refine ⟨rfl, rfl, fun _ => .refl _, fun m hm => ?_, fun g => by cases g <;> exact .inl rfl⟩
  by_cases e : m = n
  · subst e
    obtain ⟨y, rfl⟩ := h.resolve_left hm
    simp [State.setCommanded]
  · have : (s.setCommanded n x).chain m = s.chain m := State.chain_setChain_ne _ _ _ _ e
    rw [this]
    exact ⟨rfl, rfl, rfl⟩

theorem Beside.setFlight (s : State) (g : GroupId) (f : CueFields) {x : InFlight} (h : x.cue = f.id) :
    Beside f s (s.setGroup g { s.group g with inFlight := some x }) := by
  refine ⟨by simp, by simp, fun _ => by simp, fun n _ => ?_, fun g' => ?_⟩
  · have : (s.setGroup g { s.group g with inFlight := some x }).chain n = s.chain n := by cases g <;> rfl
    rw [this]
    exact ⟨rfl, rfl, rfl⟩
  · by_cases e : g' = g
    · subst e
      exact .inr (.inr ⟨x, by simp, h⟩)
    · rw [State.group_setGroup_ne _ _ _ _ e]
      exact .inl rfl

theorem Beside.commandChangeover (s : State) (f : CueFields) : Beside f s (s.commandChangeover f) := by
  unfold State.commandChangeover
  split
  · exact .refl f s
  · dsimp only
    split
    · exact ((Beside.setCommanded (.inl rfl)).trans (.setCommanded (.inr ⟨_, rfl⟩))).trans (.setFlight _ _ f rfl)
    · exact (Beside.setCommanded (.inl rfl)).trans (.setFlight _ _ f rfl)

theorem Beside.commandFor (s : State) (f : CueFields) (lamp : Bool) : Beside f s (s.commandFor f lamp) := by
  unfold State.commandFor
  dsimp only
  split
  case h_5 => exact .commandChangeover s f
  case h_6 => exact .refl f s
  all_goals exact .setCommanded (.inl rfl)

/-- A pending swap has been taken, after a change of this cue's runtime, with no cue left to hold it back (R69, R70). -/
def Took (s : State) (c : Cue) (e : Effect) : Prop :=
  s.cues.swapPending = true ∧ ∃ (u : State) (r : CueRuntime), u.cues = (s.setRuntime c.fields.id r).cues
    ∧ u.swapFree = true ∧ e.state = u.takeSwap

/-- What an acting on one cue does to the cue engine's record: it writes that cue's runtime at most, with the take it was given, or
takes a pending swap. -/
def Writes (s : State) (c : Cue) (e : Effect) : Prop :=
  (e.swapped = false ∧ (∀ t ∈ e.tasks, Brought t) ∧ Beside c.fields s e.state
      ∧ (e.state.cues = s.cues
        ∨ ∃ r : CueRuntime, r.takeGiven = c.runtime.takeGiven ∧ e.state.cues = (s.setRuntime c.fields.id r).cues))
    ∨ (e.swapped = true ∧ Took s c e)

theorem putRuntime_putRuntime (bank : List Cue) (id : CueId) (a b : CueRuntime) :
    putRuntime (putRuntime bank id a) id b = putRuntime bank id b := by
  simp only [putRuntime, List.map_map]
  refine List.map_congr_left fun c _ => ?_
  by_cases e : c.fields.id = id <;> simp [e]

theorem Writes.quiet (s : State) (c : Cue) : Writes s c s.quiet := .inl ⟨rfl, by simp [State.quiet], .refl _ s, .inl rfl⟩

theorem Writes.runtime (s : State) (c : Cue) (r : CueRuntime) (h : r.takeGiven = c.runtime.takeGiven) :
    Writes s c (s.setRuntime c.fields.id r).quiet :=
  .inl ⟨rfl, by simp [State.quiet], .setRuntime .., .inr ⟨r, h, rfl⟩⟩

/-- A write of the cue's runtime before the acting changes nothing of what is said of it. -/
theorem Writes.after {s : State} {c : Cue} {r : CueRuntime} {e : Effect} (hr : r.takeGiven = c.runtime.takeGiven)
    (h : Writes (s.setRuntime c.fields.id r) { c with runtime := r } e) : Writes s c e := by
  obtain ⟨hs, ht, hb, hw⟩ | h := h
  · refine .inl ⟨hs, ht, (Beside.setRuntime ..).trans hb, .inr ?_⟩
    obtain hw | ⟨q, hq, hw⟩ := hw
    · exact ⟨r, hr, hw⟩
    · exact ⟨q, hq.trans hr, by simp [hw, putRuntime_putRuntime]⟩
  · obtain ⟨hs, hp, u, q, hu, hfree, he⟩ := h
    exact .inr ⟨hs, hp, u, q, by simp [hu, putRuntime_putRuntime], hfree, he⟩

theorem settleChange_writes {s u : State} {c : Cue} (r : CueRuntime) (hr : r.takeGiven = c.runtime.takeGiven)
    (hb : Beside c.fields s u) (h : u.cues = (s.setRuntime c.fields.id r).cues) : Writes s c (u.settleChange c r) := by
  have key : ∀ v : State, v.cues = u.cues → Beside c.fields s v → Writes s c
      (if c.holdsSwap && v.cues.swapPending && v.swapFree then
          { state := v.takeSwap, tasks := v.takeSwap.eligibleAll, swapped := true }
        else
          { state := v
            tasks := (if r.state == .failed || r.state == .abandoned then followersOf v.cues.live c.fields.id else [])
              ++ [.eligible c.fields.chain] }) := by
    intro v hv hbv
    split
    · next hswap =>
      simp only [Bool.and_eq_true, hv, h] at hswap
      exact .inr ⟨rfl, hswap.1.2, v, r, hv.trans h, hswap.2, rfl⟩
    · refine .inl ⟨rfl, fun t ht => ?_, hbv, .inr ⟨r, hr, hv.trans h⟩⟩
      rcases List.mem_append.mp ht with ht | ht
      · split at ht
        · obtain ⟨d, -, rfl⟩ := List.mem_map.mp ht
          exact .inr ⟨_, rfl⟩
        · cases ht
      · exact .inl ⟨_, List.mem_singleton.mp ht⟩
  unfold State.settleChange
  dsimp only
  split
  · exact key _ rfl (hb.trans (.withdrawSet ..))
  · exact key _ rfl hb

section Acts

variable (s : State) (c : Cue)

theorem failCue_writes (r : CueRuntime) (cause : FailureCause) (hr : r.takeGiven = c.runtime.takeGiven) :
    Writes s c (s.failCue c r cause) :=
  settleChange_writes { r with state := .failed, cause := cause, effectField := none, expected := none } hr
    (((Beside.setRuntime ..).trans (.endFlight ..)).trans (.of_alarms (raise_alarmsOnly ..))) (by simp)

theorem abandonCue_writes : Writes s c (s.abandonCue c) :=
  settleChange_writes { c.runtime with state := .abandoned, effectField := none, expected := none } rfl
    ((Beside.setRuntime ..).trans (.endFlight ..)) (by simp)

theorem confirmCue_writes : Writes s c (s.confirmCue c) :=
  settleChange_writes { c.runtime with state := .done, effectField := none, expected := none } rfl
    ((Beside.setRuntime ..).trans (.endFlight ..)) (by simp)

theorem doneAtOnce_writes (b : Bool) : Writes s c (s.doneAtOnce c b) :=
  settleChange_writes { c.runtime.firedAt s.fieldCount with
    state := .done, rehearsed := (c.runtime.firedAt s.fieldCount).rehearsed || b } rfl
    ((Beside.setRuntime ..).trans (.lateAndSnapshot ..)) (by simp)

theorem fireCue_writes (hr : s.cues.rehearse = false) : Writes s c (s.fireCue c) := by
  have kept (u : State) (late lamp : Bool) :
      let v := ((if late then u.raiseLate c else u).queueActions c).commandFor c.fields lamp
      (if c.fields.snapshot && v.snaps.settings.cue then v.requestSnapshot .cue (some c.fields.id) else v).cues = u.cues := by
    dsimp only
    split <;> simp <;> split <;> simp
  have beside (u : State) (hu : u.cues.rehearse = false) (late lamp : Bool) :
      let v := ((if late then u.raiseLate c else u).queueActions c).commandFor c.fields lamp
      Beside c.fields u (if c.fields.snapshot && v.snaps.settings.cue then v.requestSnapshot .cue (some c.fields.id) else v) := by
    have hlate : Beside c.fields u (if late then u.raiseLate c else u) := .ite _ (.raiseLate ..)
    exact ((hlate.trans (.queueActions (hlate.rehearse.trans hu) c)).trans (.commandFor ..)).trans
      (.ite _ (.of_alarms (requestSnapshot_alarmsOnly ..)))
  exact settleChange_writes _ rfl ((Beside.setRuntime ..).trans (beside _ (by exact hr) _ _)) (kept _ _ _)

theorem withholdCue_writes (reason : WithholdReason) : Writes s c (s.withholdCue c reason) := by
  unfold State.withholdCue
  split
  · exact .runtime s c { c.runtime with reason := reason } rfl
  · exact settleChange_writes { c.runtime with state := .withheld, reason := reason, withholdCount := 0 } rfl
      ((Beside.setRuntime ..).trans (.of_alarms (raise_alarmsOnly ..))) (by simp)

theorem decideCue_writes : Writes s c (s.decideCue c) := by
  unfold State.decideCue
  split
  · exact withholdCue_writes ..
  · exact doneAtOnce_writes ..
  · split
    · exact doneAtOnce_writes ..
    · next hr =>
      split
      · exact doneAtOnce_writes ..
      · exact fireCue_writes _ _ (by simpa using hr)

theorem dueCue_writes (due : Field) : Writes s c (s.dueCue c due) :=
  .after (r := { c.runtime with dueField := some due }) rfl
    (decideCue_writes (s.setRuntime c.fields.id { c.runtime with dueField := some due })
      { c with runtime := { c.runtime with dueField := some due } })

/-- The lamp-up of a START is sent outside rehearse only (R54, R103). -/
theorem lampUp_writes (hr : s.cues.rehearse = false) : Writes s c (s.lampUp c).quiet := by
  refine .inl ⟨rfl, by simp [State.quiet], ?_, .inr ⟨{ c.runtime with lampSent := true }, rfl, rfl⟩⟩
  have queued (u : State) (hu : u.cues.rehearse = false) (x : ActionSet) : Beside c.fields u (u.queueSet x) :=
    ⟨rfl, rfl, fun h => (by rw [hu] at h; cases h), fun _ _ => ⟨rfl, rfl, rfl⟩, fun g => by cases g <;> exact .inl rfl⟩
  exact ((Beside.setRuntime ..).trans (queued _ (by exact hr) _)).trans (.setCommanded (.inl rfl))

theorem evaluateCue_writes : Writes s c (s.evaluateCue c) := by
  unfold State.evaluateCue
  dsimp only
  split
  · exact .quiet ..
  · split
    · split
      · split
        · exact failCue_writes _ _ _ _ rfl
        · exact dueCue_writes ..
      · split
        · next hl =>
          simp only [State.lampUpDue, Bool.and_eq_true, Bool.not_eq_true'] at hl
          exact lampUp_writes _ _ hl.1.2
        · exact .quiet ..
    · exact .quiet ..

theorem afterArming_writes : Writes s c (s.afterArming c) := by
  unfold State.afterArming
  split
  · exact dueCue_writes ..
  · exact .quiet ..
  · exact evaluateCue_writes ..
  · exact evaluateCue_writes ..
  · exact .quiet ..
  · exact .quiet ..

theorem actOnTake_writes : Writes s c (s.actOnTake c) := by
  unfold State.actOnTake
  split
  · split
    · exact dueCue_writes ..
    · exact evaluateCue_writes ..
  · exact decideCue_writes ..
  all_goals exact .quiet ..

theorem recheckCue_writes : Writes s c (s.recheckCue c) := by
  unfold State.recheckCue
  split
  · dsimp only
    split
    · exact failCue_writes _ _ _ _ rfl
    · exact .runtime _ _ _ rfl
  · exact decideCue_writes ..
  · exact decideCue_writes ..

theorem followCue_writes (f : Field) : Writes s c (s.followCue c f) := by
  unfold State.followCue
  split
  · exact .quiet ..
  · split
    · dsimp only
      split
      · exact failCue_writes _ _ _ _ rfl
      · exact dueCue_writes ..
    · exact .quiet ..

theorem judgeByArrival_writes (f : Field) : Writes s c (s.judgeByArrival c f) := by
  have confirmIf (b : Bool) : Writes s c (if b then s.confirmCue c else s.quiet) := by
    split
    · exact confirmCue_writes ..
    · exact .quiet ..
  unfold State.judgeByArrival
  dsimp only
  split
  · split
    · split
      · exact .quiet ..
      · split
        · exact confirmCue_writes ..
        · exact failCue_writes _ _ _ _ rfl
      all_goals exact failCue_writes _ _ _ _ rfl
    · exact confirmIf _
    · exact confirmIf _
    all_goals exact .quiet ..
  · exact .quiet ..

theorem judgeByEntry_writes (x : ChainState) (a : Option Field) : Writes s c (s.judgeByEntry c x a) := by
  have left : Writes s c (match a with
      | some f => if judges c.runtime.effectField f then s.failCue c c.runtime .contradicted else s.quiet
      | none => s.quiet) := by
    split
    · split
      · exact failCue_writes _ _ _ _ rfl
      · exact .quiet ..
    · exact .quiet ..
  unfold State.judgeByEntry
  cases x
  case atSpeed => exact confirmCue_writes ..
  case idle => exact left
  case cued => exact left
  case spooling => exact left
  case runDown => exact left
  all_goals exact .quiet ..

theorem countConfirm_writes (f : Field) : Writes s c (s.countConfirm c f) := by
  unfold State.countConfirm
  split
  · split
    · dsimp only
      split
      · exact failCue_writes _ _ _ _ rfl
      · exact .runtime _ _ _ rfl
    · exact .quiet ..
  · split
    · exact failCue_writes _ _ _ _ rfl
    · exact .quiet ..

end Acts

/-- The cue on which a task acts: the one it names, in a state in which it acts on it, or a WAITING head. -/
def ActsOn (s : State) (t : Task) (c : Cue) : Prop :=
  match named t with
  | none => c ∈ s.cues.live ∧ c.runtime.state = .waiting
  | some (id, states) => s.liveCue id = some c ∧ c.runtime.state ∈ states

theorem onCue_writes {s : State} {id : CueId} {states : List CueState} {act : Cue → Effect}
    (h : ∀ c, Writes s c (act c)) :
    s.onCue id states act = s.quiet
      ∨ ∃ c, (s.liveCue id = some c ∧ c.runtime.state ∈ states) ∧ Writes s c (s.onCue id states act) := by
  unfold State.onCue
  split
  · exact .inl rfl
  · next c hc =>
    split
    · next hs => exact .inr ⟨c, ⟨hc, by simpa using hs⟩, h c⟩
    · exact .inl rfl

/-- A task does nothing, or it writes the runtime of the one cue on which it acts, or takes a pending swap. -/
theorem runTask_writes (s : State) (t : Task) :
    s.runTask t = s.quiet ∨ ∃ c, ActsOn s t c ∧ Writes s c (s.runTask t) := by
  have unlessQuiet (c : Cue) (b : Bool) {e : Effect} (he : Writes s c e) :
      Writes s c (if b then e else s.quiet) := by
    split
    · exact he
    · exact .quiet ..
  cases t with
  | eligible n =>
    simp only [State.runTask, State.computeEligible]
    split
    · exact .inl rfl
    · next c hc =>
      split
      · next hw =>
        exact .inr ⟨c, ⟨List.mem_of_find?_eq_some hc, by simpa using hw⟩,
          .after (r := { c.runtime with state := .armed }) rfl
            (afterArming_writes (s.armed c) { c with runtime := { c.runtime with state := .armed } })⟩
      · exact .inl rfl
  | abandonFollower id => exact onCue_writes (abandonCue_writes s)
  | abandonStopped id => exact onCue_writes (abandonCue_writes s)
  | abandonNamed id => exact onCue_writes (abandonCue_writes s)
  | evaluate id => exact onCue_writes fun c => unlessQuiet c _ (evaluateCue_writes s c)
  | taken id => exact onCue_writes (actOnTake_writes s)
  | recheck id => exact onCue_writes (recheckCue_writes s)
  | follow id f => exact onCue_writes fun c => unlessQuiet c _ (followCue_writes s c f)
  | fail id cause => exact onCue_writes fun c => failCue_writes s c c.runtime cause rfl
  | confirm id => exact onCue_writes (confirmCue_writes s)
  | judgeArrival id f => exact onCue_writes fun c => judgeByArrival_writes s c f
  | judgeEntry id x a => exact onCue_writes fun c => unlessQuiet c _ (judgeByEntry_writes s c x a)
  | countConfirm id f => exact onCue_writes fun c => countConfirm_writes s c f

/-- A swap is taken only when one is pending (R70). -/
theorem runTask_swapped {s : State} {t : Task} (h : (s.runTask t).swapped = true) : s.cues.swapPending = true := by
  rcases runTask_writes s t with e | ⟨c, -, ⟨hs, -⟩ | ⟨-, hp, -⟩⟩
  · rw [e] at h; cases h
  · rw [hs] at h; cases h
  · exact hp

/-! ### Every task makes progress -/

theorem changed_progress {s : State} {c : Cue} {st : CueState} {e : Effect} (hn : (s.briefs.map Brief.id).Nodup)
    (hswap : e.swapped = true → s.cues.swapPending = true) (hc : c ∈ s.cues.live) (hst : st ∈ canBecome c.runtime.state)
    (h : Changed s c st e) : Progress s e := by
  have lower := rankOf_setState hn (brief_mem hc) st
  have hr : st.rank < c.brief.state.rank := canBecome_rank hst
  have hid : c.brief.id = c.fields.id := rfl
  rw [hid] at lower
  obtain ⟨-, hb, hp, hq, ht⟩ | ⟨hs, u, hb, hp, hq, -, hu, ht⟩ := h
  · refine ⟨by rw [width_eq, width_eq, hb, hp, setState_length], .inr ⟨?_, ?_⟩⟩
    · rw [rank_eq, rank_eq, hb, hp, hq]; omega
    · have hlen : e.state.cues.live.length = s.briefs.length := by
        rw [← setState_length s.briefs c.fields.id st, ← hb]; simp [State.briefs]
      have := followersOf_length e.state.cues.live c.fields.id
      rw [ht, width_eq]
      split <;> simp only [List.length_append, List.length_cons, List.length_nil] <;> omega
  · have hlen : u.cues.live.length = s.briefs.length := by
      rw [← setState_length s.briefs c.fields.id st, ← hb]; simp [State.briefs]
    have hbank := bankRank_le u.cues.preset
    have hflag : u.takeSwap.cues.rank = bankRank u.cues.preset := rfl
    have hheads := headsInOrder_length u.cues.preset []
    have hwidth : u.takeSwap.cues.width = u.cues.preset.length + u.cues.live.length + 10 := by
      simp [CueEngine.width, State.takeSwap]
    have htasks : u.takeSwap.eligibleAll.length = (headsInOrder u.cues.preset []).length := by
      simp [State.eligibleAll, State.takeSwap]
    rw [hp] at hbank hheads hwidth
    refine ⟨by rw [hu, hwidth, width_eq]; omega, .inr ⟨?_, ?_⟩⟩
    · rw [hu, hflag, rank_eq, hp]
      simp only [hswap hs, if_true]
      omega
    · rw [ht, htasks, width_eq, hp]
      omega

theorem moved_progress {s : State} {e : Effect} (hn : (s.briefs.map Brief.id).Nodup)
    (hswap : e.swapped = true → s.cues.swapPending = true) (h : Moved s e) : Progress s e := by
  obtain ⟨hb, hp, hq, ht, -⟩ | ⟨c, hc, st, hst, hch⟩ := h
  · exact ⟨by rw [width_eq, width_eq, hb, hp], .inl ⟨ht, by rw [rank_eq, rank_eq, hb, hp, hq]⟩⟩
  · exact changed_progress hn hswap hc hst hch

theorem runTask_progress {s : State} (hn : (s.briefs.map Brief.id).Nodup) (t : Task) : Progress s (s.runTask t) := by
  rcases runTask_moved hn t with hm | ⟨n, c, -, hc, hw, hm⟩
  · exact moved_progress hn runTask_swapped hm
  · have hmem := List.mem_of_find?_eq_some hc
    have lower := rankOf_setState hn (brief_mem hmem) .armed
    have hwr : c.brief.state.rank = 4 := by simp [Cue.brief, hw, CueState.rank]
    have har : CueState.armed.rank = 3 := rfl
    have hid : c.brief.id = c.fields.id := rfl
    rw [hid] at lower
    obtain ⟨hwidth, h⟩ := moved_progress (armed_nodup c hn) (fun hs => runTask_swapped (s := s) hs) hm
    have hw' : (s.armed c).cues.width = s.cues.width := by
      rw [width_eq, width_eq, armed_briefs, setState_length]; rfl
    have hr' : (s.armed c).cues.rank < s.cues.rank := by
      have hp : (s.armed c).cues.preset = s.cues.preset := rfl
      have hq : (s.armed c).cues.swapPending = s.cues.swapPending := rfl
      rw [rank_eq, rank_eq, armed_briefs, hp, hq]
      omega
    refine ⟨hwidth.trans hw', .inr ?_⟩
    rw [hw'] at h
    rcases h with ⟨ht, hrank⟩ | ⟨hrank, ht⟩
    · exact ⟨hrank ▸ hr', by simp [ht]⟩
    · exact ⟨hrank.trans hr', ht⟩

/-- One task uses up a step. -/
theorem runTask_stepsLeft {s : State} (hn : (s.briefs.map Brief.id).Nodup) (t : Task) (rest : List Task) :
    stepsLeft (s.runTask t).state ((s.runTask t).tasks ++ if (s.runTask t).swapped then [] else rest)
      < stepsLeft s (t :: rest) := by
  obtain ⟨hw, h⟩ := runTask_progress hn t
  have hrest : (if (s.runTask t).swapped then [] else rest).length ≤ rest.length := by split <;> simp
  simp only [stepsLeft, hw, List.length_append, List.length_cons]
  rcases h with ⟨ht, hr⟩ | ⟨hr, ht⟩
  · rw [ht, hr]
    simp only [List.length_nil]
    omega
  · have := Nat.mul_le_mul_left s.cues.width hr
    rw [Nat.mul_succ] at this
    omega

/-- A property of the state that every task keeps, and under which no id stands twice in the LIVE bank. -/
structure Guard (P : State → Prop) : Prop where
  apart : ∀ s, P s → (s.briefs.map Brief.id).Nodup
  kept : ∀ s t, P s → P (s.runTask t).state

theorem guard_sound : Guard (fun s => s.cues.sound = true) :=
  ⟨fun s h => ((sound_iff s).mp h).1, fun _ t h => (runTask_banksKept h t).1 h⟩

section Guarded

variable {P : State → Prop} (g : Guard P)

include g

/-- With steps enough nothing is left undone. -/
theorem runTasks_all : ∀ (fuel : Nat) (s : State) (tasks : List Task), P s → stepsLeft s tasks ≤ fuel →
    (runTasks fuel s tasks).2 = []
  | 0, _, tasks, _, h => by
    have : tasks.length = 0 := by unfold stepsLeft at h; omega
    simpa [runTasks] using this
  | _ + 1, _, [], _, _ => rfl
  | fuel + 1, s, t :: rest, hs, h => by
    unfold runTasks
    have := runTask_stepsLeft (g.apart s hs) t rest
    exact runTasks_all fuel _ _ (g.kept s t hs) (by omega)

/-- More steps than enough change nothing. -/
theorem runTasks_stable : ∀ (a b : Nat) (s : State) (tasks : List Task), P s → stepsLeft s tasks ≤ a →
    stepsLeft s tasks ≤ b → runTasks a s tasks = runTasks b s tasks
  | 0, 0, _, _, _, _, _ => rfl
  | a, b, _, [], _, _, _ => by cases a <;> cases b <;> rfl
  | 0, _ + 1, s, t :: rest, _, h, _ => by simp [stepsLeft] at h
  | _ + 1, 0, s, t :: rest, _, _, h => by simp [stepsLeft] at h
  | a + 1, b + 1, s, t :: rest, hs, ha, hb => by
    unfold runTasks
    have := runTask_stepsLeft (g.apart s hs) t rest
    exact runTasks_stable a b _ _ (g.kept s t hs) (by omega) (by omega)

/-- Nothing that an event brings is left undone. -/
theorem carryOut_all {s : State} (hs : P s) (tasks : List Task) : (runTasks (s.cues.fuel tasks) s tasks).2 = [] :=
  runTasks_all g _ s tasks hs (by simp only [CueEngine.fuel, stepsLeft]; omega)

/-- Tasks are carried out in order, what a task brings before what stands behind it; a swap drops the rest (R70, R73, R77). -/
theorem carryOut_cons {s : State} (hs : P s) (t : Task) (rest : List Task) :
    s.carryOut (t :: rest)
      = (s.runTask t).state.carryOut ((s.runTask t).tasks ++ if (s.runTask t).swapped then [] else rest) := by
  have := runTask_stepsLeft (g.apart s hs) t rest
  unfold State.carryOut
  conv => lhs; rw [CueEngine.fuel, runTasks]
  refine congrArg Prod.fst (runTasks_stable g _ _ _ _ (g.kept s t hs) ?_ ?_)
  · simp only [stepsLeft] at this ⊢
    omega
  · simp only [CueEngine.fuel, stepsLeft]
    omega

end Guarded

/-- Settles O9: each task uses up one of the steps that the fuel counts, so the fuel of log 36 always suffices. -/
theorem cueTasksAreAllCarriedOut : Obligations.CueTasksAreAllCarriedOut :=
  fun _ hs => ⟨carryOut_all guard_sound hs, rfl, carryOut_cons guard_sound hs⟩

end Sys2Proof.Proofs.Tasks
end

section
/-! What the handling of an event does to the alarm unit, the snapshot buffer and the notices: raisings, withdrawals and snapshot
requests, one after another (R160, R161, R176). -/

namespace Sys2Proof.Proofs.Handling

open Sys2Proof Sys2Proof.Machine

/-- The alarm unit, the snapshot buffer and the notices of class 4 come to be as they are by raisings of the sources in one list,
withdrawals of those in another, and snapshot requests, which may raise or withdraw SNAPSHOT ALMOST FULL. -/
inductive Handled (raised withdrawn : List Source) : State → State → Prop
  | aside {s t : State} (ha : t.alarms = s.alarms) (hs : t.snaps = s.snaps) (hn : t.round.notices = s.round.notices) :
      Handled raised withdrawn s t
  | raise (s : State) {src : Source} (d : Detail) (h : src ∈ raised) : Handled raised withdrawn s (s.raise src d)
  | withdraw (s : State) {src : Source} (h : src ∈ withdrawn) : Handled raised withdrawn s (s.withdraw src)
  | request (s : State) (k : TriggerKind) (tag : Option (BitVec 16)) : Handled raised withdrawn s (s.requestSnapshot k tag)
  | trans {s t u : State} (h : Handled raised withdrawn s t) (k : Handled raised withdrawn t u) : Handled raised withdrawn s u

theorem Handled.refl (r w : List Source) (s : State) : Handled r w s s := .aside rfl rfl rfl

theorem Handled.mono {r w r' w' : List Source} {s t : State} (h : Handled r w s t) (hr : ∀ x ∈ r, x ∈ r')
    (hw : ∀ x ∈ w, x ∈ w') : Handled r' w' s t := by
  induction h with
  | aside ha hs hn => exact .aside ha hs hn
  | raise s d h => exact .raise s d (hr _ h)
  | withdraw s h => exact .withdraw s (hw _ h)
  | request s k tag => exact .request s k tag
  | trans _ _ ih ik => exact ih.trans ik

/-! ### What is kept -/

section Kept

variable {r w : List Source} {s t : State}

theorem Handled.sound (h : Handled r w s t) : s.alarms.sound = true → t.alarms.sound = true := by
  induction h with
  | aside ha _ _ => exact fun hs => ha ▸ hs
  | raise s d _ => exact raise_sound s _ d
  | withdraw s _ => exact withdraw_sound s _
  | request s k tag => exact requestSnapshot_sound s k tag
  | trans _ _ ih ik => exact fun hs => ik (ih hs)

theorem Handled.within (h : Handled r w s t) : s.snaps.withinSize = true → t.snaps.withinSize = true := by
  induction h with
  | aside _ hs _ => exact fun hw => hs ▸ hw
  | raise s d _ => exact raise_within s _ d
  | withdraw s _ => exact fun hw => withdraw_snaps s _ ▸ hw
  | request s k tag => exact requestSnapshot_within s k tag
  | trans _ _ ih ik => exact fun hs => ik (ih hs)

theorem storeSnapshot_notices (s : State) (k : TriggerKind) (tag : Option (BitVec 16)) :
    (s.storeSnapshot k tag).round = s.round := by
  rcases storeSnapshot_spec s k tag with ⟨_, _, _, h⟩ | ⟨_, h⟩
  · exact h
  · rw [h]

theorem storeSnapshot_alarms (s : State) (k : TriggerKind) (tag : Option (BitVec 16)) :
    (s.storeSnapshot k tag).alarms = s.alarms := by
  rcases storeSnapshot_spec s k tag with ⟨_, _, h, _⟩ | ⟨_, h⟩
  · exact h
  · rw [h]

/-- A snapshot request is the storing of the snapshot, then a raising or a withdrawal of SNAPSHOT ALMOST FULL, or nothing (R176,
R182). -/
theorem requestSnapshot_cases (s : State) (k : TriggerKind) (tag : Option (BitVec 16)) :
    (∃ d, s.requestSnapshot k tag = (s.storeSnapshot k tag).raise srcAlmostFull d)
      ∨ s.requestSnapshot k tag = (s.storeSnapshot k tag).withdraw srcAlmostFull
      ∨ s.requestSnapshot k tag = s.storeSnapshot k tag := by
  unfold State.requestSnapshot
  dsimp only
  split
  · exact .inl ⟨_, rfl⟩
  · split
    · exact .inr (.inl rfl)
    · exact .inr (.inr rfl)

theorem requestSnapshot_bound (s : State) (k : TriggerKind) (tag : Option (BitVec 16)) (h : s.round.notices.length ≤ 16) :
    (s.requestSnapshot k tag).round.notices.length ≤ 16 := by
  have hs : (s.storeSnapshot k tag).round.notices.length ≤ 16 := by rw [storeSnapshot_notices]; exact h
  rcases requestSnapshot_cases s k tag with ⟨d, e⟩ | e | e <;> rw [e]
  · exact raise_bound _ _ _ hs
  · exact withdraw_bound _ _ hs
  · exact hs

/-- Class 4 holds at most sixteen notices throughout (R12). -/
theorem Handled.bound (h : Handled r w s t) : s.round.notices.length ≤ 16 → t.round.notices.length ≤ 16 := by
  induction h with
  | aside _ _ hn => exact fun hb => hn ▸ hb
  | raise s d _ => exact raise_bound s _ d
  | withdraw s _ => exact withdraw_bound s _
  | request s k tag => exact requestSnapshot_bound s k tag
  | trans _ _ ih ik => exact fun hs => ik (ih hs)

/-- The store only grows, at its tail (R176). -/
theorem Handled.stored (h : Handled r w s t) : s.snaps.store <+: t.snaps.store := by
  induction h with
  | aside _ hs _ => rw [hs]
  | raise s d _ => exact raise_prefix s _ d
  | withdraw s _ => rw [withdraw_snaps]
  | request s k tag => exact (storeSnapshot_prefix s k tag).trans (requestSnapshot_prefix s k tag)
  | trans _ _ ih ik => exact ih.trans ik

/-- Selection and judgment keep a source of another kind standing or not, as it was, unless it was pending. -/
theorem alarmStands_congr {s t : State} (h : t.alarms = s.alarms) (x : Source) : t.alarmStands x = s.alarmStands x := by
  simp only [State.alarmStands, h]

theorem clear_pending_keeps {s : State} {src x : Source} (hne : src ≠ x) (v : Option PendingRecord) :
    (s.setAlarms { s.alarms with pending := s.alarms.pending.set src v }).alarmStands x = s.alarmStands x := by
  have hv : (src : Nat) ≠ x := fun e => hne (Fin.ext e)
  simp [State.alarmStands, AlarmUnit.isPending, AlarmUnit.isInService, hv]

/-- Entry into service makes no source stand that did not (R164). -/
theorem selectAndJudge_notStanding (s : State) (x : Source) (h : s.alarmStands x = false) :
    s.selectAndJudge.alarmStands x = false := by
  have key : s.select.alarmStands x = false := by
    rcases select_spec s with e | ⟨y, p, _, hp, _, e⟩ <;> rw [e]
    · exact h
    · simp only [State.alarmStands, AlarmUnit.isPending, AlarmUnit.isInService, Bool.or_eq_false_iff] at h ⊢
      have hxy : y ≠ x := by
        rintro rfl
        simp [hp] at h
      have hv : (y : Nat) ≠ x := fun e => hxy (Fin.ext e)
      simpa [State.enterService, State.queueNotice, State.setAlarms, hv, hxy] using h
  exact key

theorem raiseOnce_notStanding (s : State) (src x : Source) (d : Detail) (hne : src ≠ x) (h : s.alarmStands x = false) :
    (s.raiseOnce src d).alarmStands x = false := by
  unfold State.raiseOnce
  split
  · exact selectAndJudge_notStanding _ _ ((clear_pending_keeps hne _).trans h)
  · dsimp only
    refine selectAndJudge_notStanding _ _ ?_
    split
    · rw [alarmStands_congr (storeSnapshot_alarms ..)]
      exact (clear_pending_keeps hne _).trans h
    · exact (clear_pending_keeps hne _).trans h

theorem raise_notStanding (s : State) (src x : Source) (d : Detail) (hne : src ≠ x) (hfull : srcAlmostFull ≠ x)
    (h : s.alarmStands x = false) : (s.raise src d).alarmStands x = false := by
  unfold State.raise
  dsimp only
  split
  · exact raiseOnce_notStanding _ _ _ _ hfull (raiseOnce_notStanding _ _ _ _ hne h)
  · exact raiseOnce_notStanding _ _ _ _ hne h

theorem withdraw_notStanding (s : State) (src x : Source) (hne : src ≠ x) (h : s.alarmStands x = false) :
    (s.withdraw src).alarmStands x = false := by
  unfold State.withdraw
  split
  · exact selectAndJudge_notStanding _ _ ((clear_pending_keeps hne _).trans h)
  · exact h

/-- A withdrawal keeps every other source standing that stood. -/
theorem withdraw_keeps_standing (s : State) (src x : Source) (hne : src ≠ x) (h : s.alarmStands x = true) :
    (s.withdraw src).alarmStands x = true := by
  unfold State.withdraw
  split
  · exact selectAndJudge_stands _ _ ((clear_pending_keeps hne _).trans h)
  · exact h

theorem withdraw_keeps_notPending (s : State) (src x : Source) (h : s.alarms.isPending x = false) :
    (s.withdraw src).alarms.isPending x = false := by
  unfold State.withdraw
  split
  · refine selectAndJudge_notPending _ _ ?_
    by_cases hv : (src : Nat) = x
    · simp [AlarmUnit.isPending, hv]
    · simpa [AlarmUnit.isPending, hv] using h
  · exact h

/-- A source that is not withdrawn goes on standing. -/
theorem Handled.stands (h : Handled r w s t) {x : Source} (hx : x ∉ w) (hfull : srcAlmostFull ≠ x) :
    s.alarmStands x = true → t.alarmStands x = true := by
  induction h with
  | aside ha _ _ => exact fun hs => (alarmStands_congr ha x).trans hs
  | raise s d _ => exact raise_keeps_standing s _ x d
  | withdraw s h => exact withdraw_keeps_standing s _ x fun e => hx (e ▸ h)
  | request s k tag =>
    intro hs
    have hs' : (s.storeSnapshot k tag).alarmStands x = true := (alarmStands_congr (storeSnapshot_alarms ..) x).trans hs
    rcases requestSnapshot_cases s k tag with ⟨d, e⟩ | e | e <;> rw [e]
    · exact raise_keeps_standing _ _ _ _ hs'
    · exact withdraw_keeps_standing _ _ _ hfull hs'
    · exact hs'
  | trans _ _ ih ik => exact fun hs => ik (ih hs)

/-- A source that is not raised does not come to stand. -/
theorem Handled.notStanding (h : Handled r w s t) {x : Source} (hr : x ∉ r) (hfull : srcAlmostFull ≠ x) :
    s.alarmStands x = false → t.alarmStands x = false := by
  induction h with
  | aside ha _ _ => exact fun hs => (alarmStands_congr ha x).trans hs
  | raise s d h => exact raise_notStanding s _ x d (fun e => hr (e ▸ h)) hfull
  | @withdraw s src h =>
    intro hs
    by_cases e : src = x
    · subst e
      unfold State.withdraw
      split
      · refine selectAndJudge_notStanding _ _ ?_
        simp only [State.alarmStands, Bool.or_eq_false_iff] at hs ⊢
        exact ⟨by simp [AlarmUnit.isPending, State.setAlarms], hs.2⟩
      · exact hs
    · exact withdraw_notStanding s _ x e hs
  | request s k tag =>
    intro hs
    have hs' : (s.storeSnapshot k tag).alarmStands x = false := (alarmStands_congr (storeSnapshot_alarms ..) x).trans hs
    rcases requestSnapshot_cases s k tag with ⟨d, e⟩ | e | e <;> rw [e]
    · exact raise_notStanding _ _ _ _ hfull hfull hs'
    · exact withdraw_notStanding _ _ _ hfull hs'
    · exact hs'
  | trans _ _ ih ik => exact fun hs => ik (ih hs)

/-- A source neither raised nor withdrawn stands or does not, as it did. -/
theorem Handled.alarmStands_eq (h : Handled r w s t) {x : Source} (hr : x ∉ r) (hw : x ∉ w) (hfull : srcAlmostFull ≠ x) :
    t.alarmStands x = s.alarmStands x := by
  cases e : s.alarmStands x
  · exact h.notStanding hr hfull e
  · exact h.stands hw hfull e

/-- A source that is not raised does not become pending. -/
theorem Handled.notPending (h : Handled r w s t) {x : Source} (hr : x ∉ r) (hfull : srcAlmostFull ≠ x) :
    s.alarms.isPending x = false → t.alarms.isPending x = false := by
  induction h with
  | aside ha _ _ => exact fun hs => ha ▸ hs
  | raise s d h => exact raise_notPending s _ x d (fun e => hr (e ▸ h)) hfull
  | withdraw s h => exact withdraw_keeps_notPending s _ x
  | request s k tag =>
    intro hs
    have hs' : (s.storeSnapshot k tag).alarms.isPending x = false := by rw [storeSnapshot_alarms]; exact hs
    rcases requestSnapshot_cases s k tag with ⟨d, e⟩ | e | e <;> rw [e]
    · exact raise_notPending _ _ _ _ hfull hfull hs'
    · exact withdraw_keeps_notPending _ _ _ hs'
    · exact hs'
  | trans _ _ ih ik => exact fun hs => ik (ih hs)

end Kept

/-! ### The cue engine -/

/-- The alarms that the cue engine raises in carrying its tasks out (R52, R86, R100). -/
def cueSources : List Source := [srcChangeoverFailed, srcChangeoverWithheld, srcCueFailed, srcCueWithheld, srcCueLate]

/-- What the cue engine does besides writing its own records. -/
abbrev CueHandled : State → State → Prop := Handled cueSources []

theorem setRuntime_handled (s : State) (id : CueId) (r : CueRuntime) : CueHandled s (s.setRuntime id r) := .aside rfl rfl rfl

theorem endFlight_handled (s : State) (c : Cue) : CueHandled s (s.endFlight c) := by
  unfold State.endFlight
  split <;> exact .aside rfl rfl rfl

theorem raiseLate_handled (s : State) (c : Cue) : CueHandled s (s.raiseLate c) := by
  unfold State.raiseLate
  split
  · exact .refl ..
  · refine .raise _ _ ?_
    simp [cueSources]

theorem lateIf_handled (s : State) (b : Bool) (c : Cue) : CueHandled s (if b then s.raiseLate c else s) := by
  split
  · exact raiseLate_handled ..
  · exact .refl ..

theorem snapshotIf_handled (s : State) (b : Bool) (k : TriggerKind) (tag : Option (BitVec 16)) :
    CueHandled s (if b then s.requestSnapshot k tag else s) := by
  split
  · exact .request ..
  · exact .refl ..

theorem settleChange_handled (s : State) (c : Cue) (r : CueRuntime) : CueHandled s (s.settleChange c r).state := by
  have gone (b : Bool) : CueHandled s (if b then s.withdrawSet c.fields.id else s) := by
    split <;> exact .aside rfl rfl rfl
  have swap (u : State) (b : Bool) (x y : List Task) :
      CueHandled u (if b then ({ state := u.takeSwap, tasks := x, swapped := true } : Effect)
        else { state := u, tasks := y }).state := by
    split <;> exact .aside rfl rfl rfl
  unfold State.settleChange
  exact (gone _).trans (swap _ _ _ _)

theorem changed_handled (s : State) (c : Cue) (id : CueId) (r : CueRuntime) :
    CueHandled s ((s.setRuntime id r).endFlight c) :=
  (setRuntime_handled s id r).trans (endFlight_handled _ c)

theorem failCue_handled (s : State) (c : Cue) (r : CueRuntime) (cause : FailureCause) :
    CueHandled s (s.failCue c r cause).state := by
  unfold State.failCue
  refine ((changed_handled ..).trans (.raise _ _ ?_)).trans (settleChange_handled ..)
  split <;> simp [cueSources]

theorem abandonCue_handled (s : State) (c : Cue) : CueHandled s (s.abandonCue c).state :=
  (changed_handled ..).trans (settleChange_handled ..)

theorem confirmCue_handled (s : State) (c : Cue) : CueHandled s (s.confirmCue c).state :=
  (changed_handled ..).trans (settleChange_handled ..)

theorem withholdCue_handled (s : State) (c : Cue) (reason : WithholdReason) : CueHandled s (s.withholdCue c reason).state := by
  unfold State.withholdCue
  split
  · exact setRuntime_handled ..
  · refine ((setRuntime_handled ..).trans (.raise _ _ ?_)).trans (settleChange_handled ..)
    split <;> simp [cueSources]

theorem doneAtOnce_handled (s : State) (c : Cue) (b : Bool) : CueHandled s (s.doneAtOnce c b).state := by
  unfold State.doneAtOnce State.lateAndSnapshot
  exact ((setRuntime_handled ..).trans ((lateIf_handled ..).trans (snapshotIf_handled ..))).trans (settleChange_handled ..)

theorem queueActions_handled (s : State) (c : Cue) : CueHandled s (s.queueActions c) := by
  unfold State.queueActions
  split <;> exact .aside rfl rfl rfl

theorem commandFor_handled (s : State) (f : CueFields) (lamp : Bool) : CueHandled s (s.commandFor f lamp) := by
  unfold State.commandFor
  dsimp only
  split
  case h_5 =>
    unfold State.commandChangeover
    split
    · exact .refl ..
    · dsimp only
      split <;> exact .aside (by simp [State.setCommanded]) (by simp [State.setCommanded]) (by simp [State.setCommanded])
  all_goals exact .aside rfl rfl rfl

theorem fireCue_handled (s : State) (c : Cue) : CueHandled s (s.fireCue c).state := by
  unfold State.fireCue
  exact (((((setRuntime_handled ..).trans (lateIf_handled ..)).trans (queueActions_handled ..)).trans
    (commandFor_handled ..)).trans (snapshotIf_handled ..)).trans (settleChange_handled ..)

theorem decideCue_handled (s : State) (c : Cue) : CueHandled s (s.decideCue c).state := by
  unfold State.decideCue
  split
  · exact withholdCue_handled ..
  · exact doneAtOnce_handled ..
  · split
    · exact doneAtOnce_handled ..
    · split
      · exact doneAtOnce_handled ..
      · exact fireCue_handled ..

theorem dueCue_handled (s : State) (c : Cue) (due : Field) : CueHandled s (s.dueCue c due).state :=
  (setRuntime_handled ..).trans (decideCue_handled ..)

theorem evaluateCue_handled (s : State) (c : Cue) : CueHandled s (s.evaluateCue c).state := by
  unfold State.evaluateCue
  dsimp only
  split
  · exact .refl ..
  · split
    · split
      · split
        · exact failCue_handled ..
        · exact dueCue_handled ..
      · split
        · exact .aside rfl rfl rfl
        · exact .refl ..
    · exact .refl ..

theorem afterArming_handled (s : State) (c : Cue) : CueHandled s (s.afterArming c).state := by
  unfold State.afterArming
  split
  · exact dueCue_handled ..
  · exact .refl ..
  · exact evaluateCue_handled ..
  · exact evaluateCue_handled ..
  · exact .refl ..
  · exact .refl ..

theorem computeEligible_handled (s : State) (n : ChainNo) : CueHandled s (s.computeEligible n).state := by
  unfold State.computeEligible
  split
  · exact .refl ..
  · split
    · exact (setRuntime_handled ..).trans (afterArming_handled ..)
    · exact .refl ..

theorem actOnTake_handled (s : State) (c : Cue) : CueHandled s (s.actOnTake c).state := by
  unfold State.actOnTake
  split
  · split
    · exact dueCue_handled ..
    · exact evaluateCue_handled ..
  · exact decideCue_handled ..
  all_goals exact .refl ..

theorem recheckCue_handled (s : State) (c : Cue) : CueHandled s (s.recheckCue c).state := by
  unfold State.recheckCue
  split
  · dsimp only
    split
    · exact failCue_handled ..
    · exact setRuntime_handled ..
  · exact decideCue_handled ..
  · exact decideCue_handled ..

theorem followCue_handled (s : State) (c : Cue) (f : Field) : CueHandled s (s.followCue c f).state := by
  unfold State.followCue
  split
  · exact .refl ..
  · split
    · dsimp only
      split
      · exact failCue_handled ..
      · exact dueCue_handled ..
    · exact .refl ..

theorem judgeByArrival_handled (s : State) (c : Cue) (f : Field) : CueHandled s (s.judgeByArrival c f).state := by
  have confirmIf (b : Bool) : CueHandled s (if b then s.confirmCue c else s.quiet).state := by
    split
    · exact confirmCue_handled ..
    · exact .refl ..
  unfold State.judgeByArrival
  dsimp only
  split
  · split
    · split
      · exact .refl ..
      · split
        · exact confirmCue_handled ..
        · exact failCue_handled ..
      all_goals exact failCue_handled ..
    · exact confirmIf _
    · exact confirmIf _
    all_goals exact .refl ..
  · exact .refl ..

theorem judgeByEntry_handled (s : State) (c : Cue) (x : ChainState) (a : Option Field) :
    CueHandled s (s.judgeByEntry c x a).state := by
  have left : CueHandled s (match a with
      | some f => if judges c.runtime.effectField f then s.failCue c c.runtime .contradicted else s.quiet
      | none => s.quiet).state := by
    split
    · split
      · exact failCue_handled ..
      · exact .refl ..
    · exact .refl ..
  unfold State.judgeByEntry
  cases x
  case atSpeed => exact confirmCue_handled ..
  case idle => exact left
  case cued => exact left
  case spooling => exact left
  case runDown => exact left
  all_goals exact .refl ..

theorem countConfirm_handled (s : State) (c : Cue) (f : Field) : CueHandled s (s.countConfirm c f).state := by
  unfold State.countConfirm
  split
  · split
    · dsimp only
      split
      · exact failCue_handled ..
      · exact setRuntime_handled ..
    · exact .refl ..
  · split
    · exact failCue_handled ..
    · exact .refl ..

theorem onCue_handled (s : State) (id : CueId) (l : List CueState) (act : Cue → Effect)
    (h : ∀ c, CueHandled s (act c).state) : CueHandled s (s.onCue id l act).state := by
  unfold State.onCue
  split
  · exact .refl ..
  · split
    · exact h _
    · exact .refl ..

theorem runTask_handled (s : State) (t : Task) : CueHandled s (s.runTask t).state := by
  have unlessQuiet (b : Bool) {e : Effect} (he : CueHandled s e.state) : CueHandled s (if b then e else s.quiet).state := by
    split
    · exact he
    · exact .refl ..
  cases t with
  | eligible n => exact computeEligible_handled s n
  | abandonFollower id => exact onCue_handled _ _ _ _ (abandonCue_handled s)
  | abandonStopped id => exact onCue_handled _ _ _ _ (abandonCue_handled s)
  | abandonNamed id => exact onCue_handled _ _ _ _ (abandonCue_handled s)
  | evaluate id => exact onCue_handled _ _ _ _ fun c => unlessQuiet _ (evaluateCue_handled s c)
  | taken id => exact onCue_handled _ _ _ _ (actOnTake_handled s)
  | recheck id => exact onCue_handled _ _ _ _ (recheckCue_handled s)
  | follow id f => exact onCue_handled _ _ _ _ fun c => unlessQuiet _ (followCue_handled s c f)
  | fail id cause => exact onCue_handled _ _ _ _ fun c => failCue_handled s c c.runtime cause
  | confirm id => exact onCue_handled _ _ _ _ (confirmCue_handled s)
  | judgeArrival id f => exact onCue_handled _ _ _ _ fun c => judgeByArrival_handled s c f
  | judgeEntry id x a => exact onCue_handled _ _ _ _ fun c => unlessQuiet _ (judgeByEntry_handled s c x a)
  | countConfirm id f => exact onCue_handled _ _ _ _ fun c => countConfirm_handled s c f

theorem carryOut_handled (s : State) (tasks : List Task) : CueHandled s (s.carryOut tasks) :=
  carryOut_induct (CueHandled s) (fun u t h => h.trans (runTask_handled u t)) s tasks (.refl ..)

end Sys2Proof.Proofs.Handling
end

section
/-! What every step keeps: each invariant of a healthy block, operation by operation, and the queue of commands (R8, R12, R18, R59,
R158, R165, R168, R174, R191, Table 2-2). -/

namespace Sys2Proof.Proofs.Steps

open Sys2Proof Sys2Proof.Machine Sys2Proof.Proofs.Tasks Sys2Proof.Proofs.Handling

/-- The counts of a record in range, and FAULTED together with its cause. -/
def RecordSound (r : ChainRecord) : Prop := r.withinRange = true ∧ r.faultSound = true

theorem chainsSound_iff (s : State) : s.chainsSound = true ↔ ∀ n, RecordSound (s.chain n) := by
  simp only [State.chainsSound, List.all_eq_true, Bool.and_eq_true, RecordSound]
  exact ⟨fun h n => h n (mem_allChains n), fun h n _ => h n⟩

/-- The part of a record that the cue engine owns counts for nothing here (R42). -/
theorem recordSound_tracked (r : ChainRecord) : RecordSound r.tracked ↔ RecordSound r := Iff.rfl

/-- Each invariant holds in the second state when it holds in the first. -/
structure Keeps (s t : State) : Prop where
  alarms : s.alarms.sound = true → t.alarms.sound = true
  store : s.snaps.withinSize = true → t.snaps.withinSize = true
  round : s.round.withinRange = true → t.round.withinRange = true
  chains : s.chainsSound = true → t.chainsSound = true
  banks : BanksKept s t
  settled : s.cues.sound = true → s.cues.inOrder = true → s.cues.settled = true → t.cues.settled = true

theorem Keeps.trans {s t u : State} (h : Keeps s t) (k : Keeps t u) : Keeps s u where
  alarms := k.alarms ∘ h.alarms
  store := k.store ∘ h.store
  round := k.round ∘ h.round
  chains := k.chains ∘ h.chains
  banks := h.banks.trans k.banks
  settled a b c := k.settled (h.banks.1 a) (h.banks.2 a b) (h.settled a b c)

/-- What a command does: it keeps the invariants, the queue and the levels still to come, and time does not run back. -/
structure Goes (s t : State) : Prop extends Keeps s t where
  pending : t.pending = s.pending
  inputs : t.inputs = s.inputs
  time : s.now ≤ t.now

theorem Goes.trans {s t u : State} (h : Goes s t) (k : Goes t u) : Goes s u where
  toKeeps := h.toKeeps.trans k.toKeeps
  pending := k.pending.trans h.pending
  inputs := k.inputs.trans h.inputs
  time := h.time.trans k.time

theorem settled_of_briefs {s t : State} (hb : t.briefs = s.briefs) (h : s.cues.settled = true) : t.cues.settled = true := by
  rw [settled_iff_covered] at h ⊢
  rwa [hb]

/-- A write that leaves all that the invariants read, but for the counts and queues of the round master. -/
theorem Goes.aside {s t : State} (ha : t.alarms = s.alarms) (hs : t.snaps = s.snaps)
    (hr : s.round.withinRange = true → t.round.withinRange = true) (hc : ∀ n, (t.chain n).tracked = (s.chain n).tracked)
    (hb : t.briefs = s.briefs) (hp : t.cues.preset = s.cues.preset) (hq : t.pending = s.pending) (hi : t.inputs = s.inputs)
    (ht : s.now ≤ t.now) : Goes s t where
  alarms h := ha ▸ h
  store h := hs ▸ h
  round := hr
  chains h := by
    rw [chainsSound_iff] at h ⊢
    intro n
    rw [← recordSound_tracked, hc n]
    exact h n
  banks := .of_briefs hb hp
  settled _ _ := settled_of_briefs hb
  pending := hq
  inputs := hi
  time := ht

theorem Goes.refl (s : State) : Goes s s := .aside rfl rfl id (fun _ => rfl) rfl rfl rfl rfl le_rfl

/-- What stays in the frame of the alarm unit and comes about by raisings, withdrawals and requests. -/
theorem Goes.ofAlarms {r w : List Source} {s t : State} (f : AlarmsOnly s t) (h : Handled r w s t) : Goes s t where
  alarms := h.sound
  store := h.within
  round hr := by
    have hb := h.bound
    have e : t.round = { s.round with notices := t.round.notices } := by rw [f]
    simp only [RoundMaster.withinRange, Bool.and_eq_true, decide_eq_true_eq] at hr ⊢
    rw [e]
    exact ⟨⟨hr.1.1, hb hr.1.2⟩, hr.2⟩
  chains hc := by
    rw [chainsSound_iff] at hc ⊢
    exact fun n => f.chain n ▸ hc n
  banks := .of_briefs (briefs_of_cues f.cues) (by rw [f.cues])
  settled _ _ := settled_of_briefs (briefs_of_cues f.cues)
  pending := by rw [f]
  inputs := by rw [f]
  time := by rw [f]

theorem raise_goes (s : State) (src : Source) (d : Detail) : Goes s (s.raise src d) :=
  .ofAlarms (raise_alarmsOnly ..) (Handled.raise (raised := [src]) (withdrawn := []) s d (by simp))

theorem withdraw_goes (s : State) (src : Source) : Goes s (s.withdraw src) :=
  .ofAlarms (withdraw_alarmsOnly ..) (Handled.withdraw (raised := []) (withdrawn := [src]) s (by simp))

theorem requestSnapshot_goes (s : State) (k : TriggerKind) (tag : Option (BitVec 16)) : Goes s (s.requestSnapshot k tag) :=
  .ofAlarms (requestSnapshot_alarmsOnly ..) (Handled.request (raised := []) (withdrawn := []) s k tag)

/-- A write of the snapshot buffer that keeps the store within its size. -/
theorem setSnaps_goes (s : State) (b : SnapshotBuffer) (h : s.snaps.withinSize = true → b.withinSize = true) :
    Goes s (s.setSnaps b) :=
  { Goes.refl s with
    store := h, alarms := id, round := id, chains := id, banks := .refl s, settled := fun _ _ => id }

/-- A condition on the state chooses whether a step is made. -/
theorem Goes.ite {s t : State} {p : Prop} [Decidable p] (h : p → Goes s t) : Goes s (if p then t else s) := by
  split
  · next hp => exact h hp
  · exact .refl s

theorem Goes.ite' {s t u : State} {p : Prop} [Decidable p] (h : p → Goes s t) (k : ¬ p → Goes s u) :
    Goes s (if p then t else u) := by
  split
  · next hp => exact h hp
  · next hp => exact k hp

theorem judgeAlmostFull_goes (s : State) : Goes s s.judgeAlmostFull := by
  have h (x : Bool) : Goes s (s.setSnaps { s.snaps with almostFull := x }) := setSnaps_goes s _ id
  unfold State.judgeAlmostFull
  exact .ite' (fun _ => (h _).trans (raise_goes ..)) fun _ => .ite' (fun _ => (h _).trans (withdraw_goes ..)) fun _ => h _

/-- Selection and judgment after a change of the alarm unit that leaves the list nested. -/
theorem selectAndJudge_goes (s : State) (a : AlarmUnit)
    (h : strictlyNested s.alarms.inService = true → strictlyNested a.inService = true) :
    Goes s (s.setAlarms a).selectAndJudge := by
  have f := selectAndJudge_alarmsOnly (s.setAlarms a)
  have cues : (s.setAlarms a).selectAndJudge.cues = s.cues := by rw [f.cues]; rfl
  exact {
    alarms := fun hs => by
      simp only [AlarmUnit.sound, Bool.and_eq_true] at hs
      exact selectAndJudge_sound _ (h hs.1)
    store := fun hw => by rw [selectAndJudge_snaps]; exact hw
    round := fun hr => by
      have hb := selectAndJudge_bound (s.setAlarms a)
      have e : (s.setAlarms a).selectAndJudge.round
          = { s.round with notices := (s.setAlarms a).selectAndJudge.round.notices } := by rw [f]; rfl
      simp only [RoundMaster.withinRange, Bool.and_eq_true, decide_eq_true_eq] at hr ⊢
      rw [e]
      exact ⟨⟨hr.1.1, hb hr.1.2⟩, hr.2⟩
    chains := fun hc => by
      rw [chainsSound_iff] at hc ⊢
      exact fun n => f.chain n ▸ hc n
    banks := .of_briefs (briefs_of_cues cues) (by rw [cues])
    settled := fun _ _ => settled_of_briefs (briefs_of_cues cues)
    pending := by rw [f]; rfl
    inputs := by rw [f]; rfl
    time := by rw [f]; exact le_rfl }

theorem strictlyNested_drop (l : List Entry) (h : strictlyNested l = true) : strictlyNested (l.drop 1) = true := by
  cases l with
  | nil => rfl
  | cons e rest =>
    simp only [strictlyNested, Bool.and_eq_true] at h
    exact h.2

theorem acknowledgeTop_goes (s : State) : Goes s s.acknowledgeTop := selectAndJudge_goes s _ (strictlyNested_drop _)

theorem configureAlarm_goes (s : State) (src : Source) (x : Setting) : Goes s (s.configureAlarm src x) :=
  selectAndJudge_goes s _ id

/-- Judging the line afresh after a change of the threshold. -/
theorem threshold_goes (s : State) (x : Level) : Goes s (s.setAlarms { s.alarms with threshold := x }).judgeAlm :=
  { Goes.refl s with
    alarms := fun h => by
      simp only [AlarmUnit.sound, Bool.and_eq_true] at h
      simp only [AlarmUnit.sound, State.judgeAlm, State.setAlarms, Bool.and_eq_true]
      exact ⟨h.1, beq_self_eq_true _⟩
    store := id, round := id, chains := id, banks := .refl s, settled := fun _ _ => id }

/-! ### The cue engine -/

theorem banksApart_of {s : State} (h : s.cues.sound = true) (ho : s.cues.inOrder = true) : BanksApart s := by
  rw [sound_iff] at h
  rw [inOrder_iff] at ho
  exact ⟨h.1, h.2.1, atEntry_waiting ho.2⟩

theorem carryOut_goes (s : State) (tasks : List Task) : Goes s (s.carryOut tasks) := by
  have f := carryOut_cuesOnly s tasks
  have h := carryOut_handled s tasks
  exact {
    alarms := h.sound
    store := h.within
    round := fun hr => by
      have hb := h.bound
      have e : (s.carryOut tasks).round = { s.round with
          sets := (s.carryOut tasks).round.sets, placed := (s.carryOut tasks).round.placed,
          notices := (s.carryOut tasks).round.notices } := by rw [f.2]
      simp only [RoundMaster.withinRange, Bool.and_eq_true, decide_eq_true_eq] at hr ⊢
      rw [e]
      exact ⟨⟨hr.1.1, hb hr.1.2⟩, hr.2⟩
    chains := fun hc => by
      rw [chainsSound_iff] at hc ⊢
      intro n
      rw [← recordSound_tracked, f.tracked n]
      exact hc n
    banks := carryOut_banksKept s tasks
    settled := fun hs ho hd => by
      rw [settled_iff_covered] at hd
      exact carryOut_settled (banksApart_of hs ho) (hd.mono (by simp)) (carryOut_all guard_sound hs tasks)
    pending := by rw [f.2]
    inputs := by rw [f.2]
    time := by rw [f.2] }

/-- Eligibility of every chain, computed on a LIVE bank of cues at their entry values (R73). -/
theorem restart_goes (s : State) (e : CueEngine) (hk : BanksKept s { s with cues := e })
    (hw : AtEntry s.cues.preset → ∀ c ∈ e.live, c.runtime.state = .waiting) :
    Goes s (State.carryOut { s with cues := e } (State.eligibleAll { s with cues := e })) := by
  have g := carryOut_goes { s with cues := e } (State.eligibleAll { s with cues := e })
  exact {
    alarms := g.alarms
    store := g.store
    round := g.round
    chains := g.chains
    banks := hk.trans g.banks
    settled := fun hs ho _ =>
      carryOut_settled (banksApart_of (hk.1 hs) (hk.2 hs ho)) (eligibleAll_covered (hw ((inOrder_iff s).mp ho).2))
        (carryOut_all guard_sound (hk.1 hs) _)
    pending := g.pending
    inputs := g.inputs
    time := g.time }

theorem takeSwap_goes (s : State) : Goes s (s.takeSwap.carryOut s.takeSwap.eligibleAll) := by
  have writes : Goes s { s with round := s.takeSwap.round } :=
    .aside rfl rfl id (fun _ => rfl) rfl rfl rfl rfl le_rfl
  exact writes.trans (restart_goes { s with round := s.takeSwap.round } s.takeSwap.cues (takeSwap_banksKept s)
    atEntry_waiting)

theorem swapBanks_goes (s : State) : Goes s s.swapBanks :=
  .ite' (fun _ => takeSwap_goes s) fun _ => .aside rfl rfl id (fun _ => rfl) rfl rfl rfl rfl le_rfl

theorem execSwapTaken_goes (s : State) : Goes s (if s.swapReady then s.takeSwap.carryOut s.takeSwap.eligibleAll else s) :=
  .ite fun _ => takeSwap_goes s

/-- A write of the runtime of a LIVE cue that keeps its state, in a bank that may hold its id twice. -/
theorem setRuntime_goes {s : State} {c : Cue} (hm : c ∈ s.cues.live) (r : CueRuntime)
    (hr : r.state = c.runtime.state) : Goes s (s.setRuntime c.fields.id r) := by
  have key (hs : s.cues.sound = true) : (s.setRuntime c.fields.id r).briefs = s.briefs :=
    setRuntime_keeps ((sound_iff s).mp hs).1 (brief_mem hm) r hr
  exact { Goes.refl s with
    alarms := id, store := id, round := id, chains := id
    banks := ⟨fun hs => (BanksKept.of_briefs (key hs) rfl).1 hs, fun hs => (BanksKept.of_briefs (key hs) rfl).2 hs⟩
    settled := fun hs _ => settled_of_briefs (key hs) }

theorem updateNotice_goes (s : State) (n : ChainNo) (u : Field) (b : Bool) : Goes s (s.updateNotice n u b) := by
  have h : Goes s (s.recordUpdate n u) := .aside rfl rfl id (fun _ => rfl) rfl rfl rfl rfl le_rfl
  unfold State.updateNotice
  exact .ite' (fun _ => (h.trans (carryOut_goes ..)).trans (carryOut_goes ..)) fun _ => h.trans (carryOut_goes ..)

theorem raiseLate_goes (s : State) (c : Cue) : Goes s (s.raiseLate c) :=
  .ite' (fun _ => .refl s) fun _ => raise_goes ..

theorem deferCue_goes (s : State) (id : CueId) : Goes s (s.deferCue id) := by
  unfold State.deferCue
  split
  · exact .refl s
  · next c hc =>
    obtain ⟨hm, rfl⟩ := liveCue_mem hc
    refine (setRuntime_goes hm _ ?_).trans (raiseLate_goes ..)
    rfl

theorem undelivered_goes (s : State) (id : CueId) (d : Station) : Goes s (s.undelivered id d) :=
  (raise_goes ..).trans (carryOut_goes ..)

theorem giveTake_goes (s : State) : Goes s s.giveTake := by
  unfold State.giveTake
  split
  · exact .refl s
  · next c hc =>
    refine (setRuntime_goes (List.mem_of_find?_eq_some hc) _ ?_).trans (carryOut_goes ..)
    rfl

theorem cueWork_goes (s : State) (f : Field) (skip : List CueId) : Goes s (s.cueWork f skip) :=
  cueWork_induct (Goes s) (fun _ _ h => h.trans (carryOut_goes ..)) s f skip (.refl s)

theorem mapTable_chain (s : State) (f : ChainRecord → ChainRecord) (n : ChainNo) :
    State.chain { s with chains := mapTable f s.chains } n = f (s.chain n) := by
  simp [State.chain]

theorem allStop_goes (s : State) : Goes s s.allStop := by
  refine Goes.trans (t := State.withdrawAllSets (State.commandAllStop { s with round := { s.round with allStop := true } })) ?_
    (carryOut_goes ..)
  refine .aside rfl rfl id (fun n => ?_) rfl rfl rfl rfl le_rfl
  have e := congrArg ChainRecord.tracked
    (mapTable_chain s (fun r => { r with commanded := { r.commanded with motion := .stop } }) n)
  exact e

theorem setRehearse_goes (s : State) (v : Bool) : Goes s (s.setRehearse v) := by
  unfold State.setRehearse
  refine .ite' (fun _ => .refl s) fun _ => .ite' (fun _ => ?_) fun _ => .aside rfl rfl id (fun _ => rfl) rfl rfl rfl rfl le_rfl
  unfold State.startRehearse
  refine Goes.trans (t := State.withdrawAllSets { s with cues := { s.cues with rehearse := true } }) ?_ (carryOut_goes ..)
  exact .aside rfl rfl id (fun _ => rfl) rfl rfl rfl rfl le_rfl

/-! ### The group logic -/

theorem setGroup_goes (s : State) (g : GroupId) (r : GroupRecord) : Goes s (s.setGroup g r) :=
  .aside (by simp) (by simp) (by simp) (fun n => congrArg ChainRecord.tracked (State.chain_congr (by simp) n))
    (briefs_of_cues (by simp)) (by simp)
    (by simp) (by simp) (by simp)

theorem airFault_goes (s : State) (g : GroupId) (n : ChainNo) (c : Cause) : Goes s (s.airFault g n c) :=
  .ite' (fun _ => .refl s) fun _ => (setGroup_goes ..).trans (raise_goes ..)

theorem judgeAir_goes (s : State) (g : GroupId) (n : ChainNo) : Goes s (s.judgeAir g n) := by
  unfold State.judgeAir
  exact Goes.trans (.ite fun _ => airFault_goes ..) (.ite fun _ => airFault_goes ..)

theorem groupUpdate_goes (s : State) (n : ChainNo) : Goes s (s.groupUpdate n) := by
  unfold State.groupUpdate
  split
  · exact judgeAir_goes ..
  · exact .refl s

theorem groupTrouble_goes (s : State) (n : ChainNo) (c : Cause) : Goes s (s.groupTrouble n c) := by
  unfold State.groupTrouble
  split
  · exact airFault_goes ..
  · exact .refl s

theorem beginTenure_goes (s : State) (g : GroupId) (n : ChainNo) : Goes s (s.beginTenure g n) := by
  unfold State.beginTenure
  exact Goes.trans (.trans (.ite fun _ => airFault_goes ..) (.ite fun _ => airFault_goes ..)) (.ite fun _ => judgeAir_goes ..)

theorem deriveHolder_goes (s : State) (g : GroupId) : Goes s (s.deriveHolder g) := by
  unfold State.deriveHolder
  generalize s.derivedHolder g = x
  refine .ite' (fun _ => .refl s) fun _ => ?_
  split
  · exact (setGroup_goes ..).trans (beginTenure_goes ..)
  · exact setGroup_goes ..

theorem groupEntry_goes (s : State) (n : ChainNo) (x y : ChainState) : Goes s (s.groupEntry n x y) := by
  unfold State.groupEntry
  refine .ite fun _ => ?_
  split
  · exact deriveHolder_goes ..
  · exact .refl s

theorem judgeMuxFault_goes (s : State) (g : GroupId) (b : Bool) : Goes s (s.judgeMuxFault g b) := by
  unfold State.judgeMuxFault
  refine .ite' (fun _ => .refl s) fun _ => ?_
  split
  · exact carryOut_goes ..
  · exact .ite' (fun _ => .refl s) fun _ => raise_goes ..

theorem judgeFlight_goes (s : State) (g : GroupId) : Goes s (s.judgeFlight g) := by
  unfold State.judgeFlight
  split
  · exact .refl s
  · exact .ite fun _ => .ite' (fun _ => carryOut_goes ..) fun _ => .ite' (fun _ => .refl s) fun _ => carryOut_goes ..

theorem muxArrival_goes (s : State) (g : GroupId) (p : List Byte) : Goes s (s.muxArrival g p) := by
  unfold State.muxArrival
  split
  · exact .refl s
  · exact (((setGroup_goes ..).trans (judgeMuxFault_goes ..)).trans (judgeFlight_goes ..)).trans (deriveHolder_goes ..)

/-! ### The chain tracker -/

/-- A write of one record that keeps it sound. -/
theorem setChain_goes (s : State) (n : ChainNo) (r : ChainRecord) (h : RecordSound (s.chain n) → RecordSound r) :
    Goes s (s.setChain n r) :=
  { Goes.refl s with
    alarms := id, store := id, round := id, banks := .of_briefs rfl rfl, settled := fun _ _ => id
    chains := fun hc => by
      rw [chainsSound_iff] at hc ⊢
      intro m
      by_cases e : m = n
      · subst e
        rw [State.chain_setChain_self]
        exact h (hc m)
      · rw [State.chain_setChain_ne s n m r e]
        exact hc m }

theorem asFaulted_sound {r : ChainRecord} {cause : FaultCause} (hc : cause ≠ .none) (h : r.withinRange = true) :
    RecordSound (r.asFaulted cause) := by
  simp only [ChainRecord.withinRange, Bool.and_eq_true, decide_eq_true_eq] at h
  refine ⟨?_, ?_⟩
  · simp [ChainRecord.asFaulted, ChainRecord.withinRange, h.1.1, h.1.2]
  · simp [ChainRecord.asFaulted, ChainRecord.faultSound, hc]

/-- A record that is not FAULTED has no fault cause, and stays sound in any other state but FAULTED. -/
theorem faultSound_iff (r : ChainRecord) : r.faultSound = true ↔ (r.state = .faulted ↔ r.faultCause ≠ .none) := by
  rw [ChainRecord.faultSound, beq_iff_eq, Bool.eq_iff_iff, beq_iff_eq, bne_iff_ne]

theorem withinRange_iff (r : ChainRecord) :
    r.withinRange = true ↔ r.coastCount ≤ 2 ∧ r.missingCount ≤ 25 ∧ r.slipCount ≤ 1 := by
  simp [ChainRecord.withinRange, and_assoc]

theorem cadenceCheck_sound {before r : ChainRecord} (masked : Bool) (h : r.withinRange = true) (hf : r.faultCause = .none) :
    RecordSound (cadenceCheck before r masked) := by
  have hw := (withinRange_iff r).mp h
  unfold cadenceCheck
  dsimp only
  split
  · simp [RecordSound, withinRange_iff, faultSound_iff, hw, hf]
  · split
    · simp [RecordSound, withinRange_iff, faultSound_iff, hw, hf]
    · split
      · simp [RecordSound, withinRange_iff, faultSound_iff, hw, hf]
      · exact asFaulted_sound (by simp) h

/-- The motor never makes a chain FAULTED (R28). -/
theorem stateByMotor_ne_faulted (v : Reported) (p : Option Frame) : stateByMotor v p ≠ .faulted := by
  unfold stateByMotor
  split <;> (try split) <;> simp

theorem deriveArrival_sound {before r : ChainRecord} (masked : Bool) (h : RecordSound before) (hs : r.state = before.state)
    (hf : r.faultCause = before.faultCause) (hw : r.withinRange = true) : RecordSound (deriveArrival before r masked) := by
  have hb := (faultSound_iff before).mp h.2
  unfold deriveArrival
  split
  · exact ⟨hw, by rw [faultSound_iff, hs, hf]; exact hb⟩
  · next hn =>
    have hnone : r.faultCause = .none := by
      rw [hf]
      by_contra hne
      exact hn (by simpa using hb.mpr hne)
    split
    · next hfault => exact asFaulted_sound (by simpa using hfault) hw
    · have hr := (withinRange_iff r).mp hw
      have hm := stateByMotor_ne_faulted r.reported r.commanded.parkTarget
      split
      · split
        · simp [RecordSound, ChainRecord.atSpeedUnchecked, withinRange_iff, faultSound_iff, hr, hnone]
        · exact cadenceCheck_sound masked hw hnone
      · simp [RecordSound, withinRange_iff, faultSound_iff, hr, hnone, hm]

theorem arrivalRecord_sound {before : ChainRecord} (v : Reported) (masked : Bool) (h : RecordSound before) :
    RecordSound (arrivalRecord before v masked) := by
  have hw := (withinRange_iff before).mp h.1
  refine deriveArrival_sound masked h rfl rfl ?_
  simp [withinRange_iff, hw]

theorem stateChange_goes (s : State) (n : ChainNo) (x y : ChainState) (a : Option Field) :
    Goes s (s.stateChange n x y a) :=
  .ite' (fun _ => .refl s) fun _ => (carryOut_goes ..).trans (groupEntry_goes ..)

theorem handUpdate_goes (s : State) (n : ChainNo) (u : Field) (b : Bool) : Goes s (s.handUpdate n u b) :=
  (updateNotice_goes ..).trans (groupUpdate_goes ..)

theorem enterFaulted_goes (s : State) (n : ChainNo) : Goes s (s.enterFaulted n) :=
  ((raise_goes ..).trans (carryOut_goes ..)).trans (groupTrouble_goes ..)

theorem arrival_goes (s : State) (n : ChainNo) (v : Reported) : Goes s (s.arrival n v) := by
  unfold State.arrival
  exact ((((setChain_goes s n _ (arrivalRecord_sound v _)).trans (withdraw_goes ..)).trans
    (.ite fun _ => enterFaulted_goes ..)).trans (handUpdate_goes ..)).trans (stateChange_goes ..)

theorem chainArrival_goes (s : State) (n : ChainNo) (p : List Byte) : Goes s (s.chainArrival n p) := by
  unfold State.chainArrival
  refine .ite fun _ => ?_
  split
  · exact arrival_goes ..
  · exact .refl s

theorem settleRecord_sound {r : ChainRecord} (h : RecordSound r) : RecordSound (settleRecord r).record := by
  have hw := (withinRange_iff r).mp h.1
  have hf := (faultSound_iff r).mp h.2
  have coasted (hc : r.coastCount < 2) : RecordSound { r.coast with missingCount := min 25 (r.missingCount + 1) } := by
    simp only [RecordSound, ChainRecord.coast, withinRange_iff, faultSound_iff]
    exact ⟨⟨by omega, by omega, hw.2.2⟩, hf⟩
  have held : RecordSound { r with missingCount := min 25 (r.missingCount + 1) } := by
    simp only [RecordSound, withinRange_iff, faultSound_iff]
    exact ⟨⟨hw.1, by omega, hw.2.2⟩, hf⟩
  have moved : RecordSound { (if r.state == .atSpeed && !r.stale && decide (r.coastCount < 2) then r.coast else r) with
      missingCount := min 25 (r.missingCount + 1) } := by
    split
    · next hc =>
      simp only [Bool.and_eq_true, decide_eq_true_eq] at hc
      exact coasted hc.2
    · exact held
  have flagged (x : ChainRecord) (b : Bool) (hx : RecordSound x) : RecordSound (if b then { x with stale := true } else x) := by
    split
    · exact hx
    · exact hx
  have lost (x : ChainRecord) (hx : RecordSound x) : RecordSound x.lost := by
    have := (withinRange_iff x).mp hx.1
    simp [RecordSound, ChainRecord.lost, withinRange_iff, faultSound_iff, this]
  unfold settleRecord
  split
  · exact h
  · split
    · exact h
    · dsimp only
      split
      · exact lost _ (flagged _ _ moved)
      · exact flagged _ _ moved

theorem handSettled_goes (s : State) (n : ChainNo) (f : Field) (x : ChainState) (y : Settled) :
    Goes s (s.handSettled n f x y) := by
  unfold State.handSettled
  exact Goes.trans (.trans (.ite fun _ => handUpdate_goes ..) (.ite' (fun _ => (raise_goes ..).trans (groupTrouble_goes ..))
    fun _ => .refl _)) (.ite' (fun _ => (carryOut_goes ..).trans (stateChange_goes ..)) fun _ => .refl _)

theorem settleRecords_goes (s : State) (f : Field) : Goes s (s.settleRecords f) :=
  { Goes.refl s with
    alarms := id, store := id, round := id, banks := .of_briefs rfl rfl
    settled := fun _ _ => settled_of_briefs (t := s.settleRecords f) rfl
    chains := fun hc => by
      rw [chainsSound_iff] at hc ⊢
      intro n
      have e : (s.settleRecords f).chain n = (settleRecord (s.chain n)).record := mapTable_chain s _ n
      rw [e]
      exact settleRecord_sound (hc n) }

/-- A fold of steps that go is one that goes. -/
theorem foldl_goes {α : Type} (f : State → α → State) (h : ∀ s a, Goes s (f s a)) :
    ∀ (l : List α) (s : State), Goes s (l.foldl f s)
  | [], s => .refl s
  | a :: l, s => (h s a).trans (foldl_goes f h l _)

theorem settleChains_goes (s : State) (f : Field) : Goes s (s.settleChains f) :=
  (settleRecords_goes s f).trans (foldl_goes _ (fun _ _ => handSettled_goes ..) _ _)

theorem settleOne_goes (s : State) (n : ChainNo) : Goes s (s.settleOne n) :=
  (setChain_goes s n _ settleRecord_sound).trans (handSettled_goes ..)

theorem disableChain_goes (s : State) (n : ChainNo) : Goes s (s.disableChain n) := by
  unfold State.disableChain
  refine (((setChain_goes s n _ fun _ => ?_).trans (withdraw_goes ..)).trans (carryOut_goes ..)).trans (stateChange_goes ..)
  simp [RecordSound, withinRange_iff, faultSound_iff]

theorem dropReference_sound {r : ChainRecord} (h : RecordSound r) : RecordSound r.dropReference := by
  have hw := (withinRange_iff r).mp h.1
  have hf := (faultSound_iff r).mp h.2
  unfold ChainRecord.dropReference
  split
  · simp only [RecordSound, withinRange_iff, faultSound_iff]
    exact ⟨⟨hw.1, hw.2.1, by omega⟩, hf⟩
  · exact h

theorem configureChain_goes (s : State) (n : ChainNo) (c : ChainConfig) : Goes s (s.configureChain n c) := by
  have write : Goes s (s.setChain n { s.chain n with config := c }) := setChain_goes s n _ fun h => h
  have disabled (b : Bool) : Goes s (if b then (s.setChain n { s.chain n with config := c }).disableChain n
      else s.setChain n { s.chain n with config := c }) := by
    cases b
    · exact write
    · exact write.trans (disableChain_goes ..)
  unfold State.configureChain
  dsimp only
  split
  · exact disabled _
  · exact (disabled _).trans (setChain_goes _ _ _ dropReference_sound)

theorem clearFault_goes (s : State) (n : ChainNo) : Goes s (s.clearFault n) := by
  unfold State.clearFault
  refine (setChain_goes s n _ fun h => ?_).trans (stateChange_goes ..)
  have hw := (withinRange_iff (s.chain n)).mp h.1
  have hm := stateByMotor_ne_faulted (s.chain n).reported (s.chain n).commanded.parkTarget
  split
  · simp [RecordSound, ChainRecord.atSpeedUnchecked, withinRange_iff, faultSound_iff, hw]
  · simp [RecordSound, withinRange_iff, faultSound_iff, hw, hm]

end Sys2Proof.Proofs.Steps
end

section
/-! What every step keeps, continued: watches, rounds, desk commands, received telegrams and the idle sample period. -/

namespace Sys2Proof.Proofs.Steps

open Sys2Proof Sys2Proof.Machine Sys2Proof.Proofs.Tasks Sys2Proof.Proofs.Handling

/-! ### Watches and lines -/

theorem changeWatch_goes (s : State) (k : WatchNo) (w : Watch) : Goes s (s.changeWatch k w) := by
  have h : Goes s (s.setWatch k w) := .aside rfl rfl id (fun _ => rfl) rfl rfl rfl rfl le_rfl
  unfold State.changeWatch
  exact .ite' (fun _ => h) fun _ => .ite' (fun _ => .ite' (fun _ => h) fun _ => h.trans (raise_goes ..)) fun _ =>
    h.trans (withdraw_goes ..)

theorem sampleWatch_goes (s : State) (k : WatchNo) : Goes s (s.sampleWatch k) := .ite fun _ => changeWatch_goes ..

/-- A write of the watch bank, which no invariant reads. -/
theorem setWatches_goes (s : State) (b : WatchBank) : Goes s { s with watches := b } :=
  .aside rfl rfl id (fun _ => rfl) rfl rfl rfl rfl le_rfl

theorem settleSeen_goes (s : State) : Goes s s.settleSeen := foldl_goes _ (fun _ _ => setWatches_goes ..) _ _

theorem watchWork_goes (s : State) : Goes s s.watchWork := (foldl_goes _ sampleWatch_goes _ _).trans (settleSeen_goes _)

theorem lineWork_goes (s : State) : Goes s s.lineWork := by
  have h : Goes s s.sampleLines := .aside rfl rfl id (fun _ => rfl) rfl rfl rfl rfl le_rfl
  exact .ite' (fun _ => h.trans (giveTake_goes _)) fun _ => h

/-! ### The field close -/

theorem runClose_goes (f : Field) : ∀ (order : List CloseWork) (s : State) (skip : List CueId),
    Goes s (runClose f order s skip)
  | [], s, _ => .refl s
  | .cues :: rest, s, skip => (cueWork_goes s f skip).trans (runClose_goes f rest _ _)
  | .watches :: rest, s, _ => (watchWork_goes s).trans (runClose_goes f rest _ _)
  | .lines :: rest, s, _ => (lineWork_goes s).trans (runClose_goes f rest _ _)

theorem closeWorks_goes (s : State) (f : Field) : Goes s (s.closeWorks f) := by
  have h : Goes s { s with choices := s.choices + 1 } := .aside rfl rfl id (fun _ => rfl) rfl rfl rfl rfl le_rfl
  unfold State.closeWorks
  dsimp only
  split
  · exact runClose_goes ..
  · exact h.trans (runClose_goes ..)

/-- A write of the round master that keeps its counts and queues within bounds. -/
theorem setRound_goes (s : State) (r : RoundMaster) (h : s.round.withinRange = true → r.withinRange = true) :
    Goes s { s with round := r } :=
  .aside rfl rfl h (fun _ => rfl) rfl rfl rfl rfl le_rfl

theorem roundRange_iff (r : RoundMaster) : r.withinRange = true
    ↔ r.flywheel ≤ 3 ∧ r.broken ≤ 3 ∧ r.notices.length ≤ 16 ∧ r.replies.length ≤ 16 := by
  simp [RoundMaster.withinRange, and_assoc]

/-- The broken count, given a value up to 3. -/
theorem setBroken_goes (s : State) (n : Nat) (h : n ≤ 3) : Goes s { s with round := { s.round with broken := n } } :=
  setRound_goes s _ fun hr => by
    rw [roundRange_iff] at hr ⊢
    exact ⟨hr.1, h, hr.2.2⟩

theorem declareLoopLoss_goes (s : State) : Goes s s.declareLoopLoss := (setBroken_goes s 3 le_rfl).trans (raise_goes ..)

theorem countBroken_goes (s : State) (b : Bool) : Goes s (s.countBroken b) :=
  .ite' (fun _ => (setBroken_goes s 0 (by omega)).trans (withdraw_goes ..)) fun _ =>
    .ite' (fun _ => declareLoopLoss_goes s) fun _ => setBroken_goes s _ (by omega)

theorem periodicSnapshot_goes (s : State) : Goes s s.periodicSnapshot :=
  (setSnaps_goes s { s.snaps with dwellCount := 0 } fun h => h).trans (requestSnapshot_goes ..)

theorem dwellWork_goes (s : State) : Goes s s.dwellWork :=
  .ite' (fun _ => periodicSnapshot_goes s) fun _ => .ite' (fun _ => setSnaps_goes s _ fun h => h) fun _ =>
    setSnaps_goes s _ fun h => h

theorem fieldClose_goes (s : State) (f : Field) (b : Bool) : Goes s (s.fieldClose f b) :=
  (((settleChains_goes s f).trans (countBroken_goes ..)).trans (closeWorks_goes ..)).trans (dwellWork_goes _)

/-! ### Fixing and launching a round -/

/-- Filling takes items from the oldest while each fits: the longest front part whose sizes the space holds (R13). -/
theorem takeFitting_spec {α : Type} (size : α → Nat) : ∀ (l : List α) (space : Nat), ∃ k, k ≤ l.length
    ∧ (takeFitting size l space).1 = l.take k ∧ (takeFitting size l space).2.1 = l.drop k
    ∧ ((l.take k).map size).sum + (takeFitting size l space).2.2 = space
    ∧ (k < l.length → space < ((l.take (k + 1)).map size).sum)
  | [], space => ⟨0, by simp [takeFitting]⟩
  | a :: rest, space => by
    by_cases ha : size a ≤ space
    · obtain ⟨k, hk, h1, h2, h3, h4⟩ := takeFitting_spec size rest (space - size a)
      refine ⟨k + 1, by simpa using hk, ?_, ?_, ?_, fun hlt => ?_⟩
      · simp [takeFitting, ha, h1]
      · simp [takeFitting, ha, h2]
      · simp only [takeFitting, ha, if_true, List.take_succ_cons, List.map_cons, List.sum_cons]
        omega
      · have := h4 (by simpa using hlt)
        simp only [List.take_succ_cons, List.map_cons, List.sum_cons]
        omega
    · exact ⟨0, by simp, by simp [takeFitting, ha], by simp [takeFitting, ha], by simp [takeFitting, ha], fun _ => by
        simpa using ha⟩

theorem takeFitting_waiting_length {α : Type} (size : α → Nat) (l : List α) (space : Nat) :
    (takeFitting size l space).2.1.length ≤ l.length := by
  obtain ⟨k, -, -, h, -⟩ := takeFitting_spec size l space
  simp [h]

/-- Snapshots only leave the store in a readout (R184). -/
theorem advanceStore_held : ∀ (l : List Snapshot) (owed sent : Nat), cellsHeld (advanceStore l owed sent).1 ≤ cellsHeld l
  | [], _, _ => by simp [advanceStore]
  | x :: rest, owed, sent => by
    rw [advanceStore]
    split
    · have := advanceStore_held rest (owed - 1) (sent - x.size)
      have e : cellsHeld (x :: rest) = x.size + cellsHeld rest := by simp [cellsHeld]
      omega
    · exact le_rfl

theorem build_held {b : SnapshotBuffer} {space : Nat} {x : Built} (h : b.build space = some x) :
    cellsHeld x.buffer.store ≤ cellsHeld b.store := by
  unfold SnapshotBuffer.build at h
  split at h
  · cases h
  · split at h
    · cases h; exact le_rfl
    · cases h
  · split at h
    · cases h
    · split at h
      · cases h; exact le_rfl
      · dsimp only at h
        split at h
        · cases h
        · cases h; exact advanceStore_held ..

theorem requestData_held (b : SnapshotBuffer) (space : Nat) : cellsHeld (requestData b space).2.1.store ≤ cellsHeld b.store := by
  unfold requestData
  split
  · exact le_rfl
  · next x h => exact build_held h

theorem fix_buffer_held (s : State) : cellsHeld s.fix.buffer.store ≤ cellsHeld s.snaps.store := by
  have second (d : List Telegram × SnapshotBuffer × Nat) :
      cellsHeld (if d.1.isEmpty || 0 = d.2.2 then ([], d.2.1, d.2.2) else requestData d.2.1 d.2.2).2.1.store
        ≤ cellsHeld d.2.1.store := by
    split
    · exact le_rfl
    · exact requestData_held ..
  exact (second _).trans (requestData_held ..)

theorem fixRound_goes (s : State) : Goes s s.fixRound := by
  have hn : s.fix.notices.length ≤ s.round.notices.length := takeFitting_waiting_length ..
  have hp : s.fix.replies.length ≤ s.round.replies.length := takeFitting_waiting_length ..
  have hb := fix_buffer_held s
  exact { Goes.refl s with
    alarms := id, chains := id, banks := .of_briefs rfl rfl, settled := fun _ _ => id
    store := fun h => by
      have h := of_decide_eq_true h
      exact decide_eq_true (hb.trans h)
    round := fun h => by
      rw [roundRange_iff] at h ⊢
      exact ⟨h.1, h.2.1, hn.trans h.2.2.1, hp.trans h.2.2.2⟩ }

theorem reportFixing_goes (s : State) : Goes s s.reportFixing :=
  (judgeAlmostFull_goes s).trans (foldl_goes _ deferCue_goes _ _)

theorem launch_goes (s : State) : Goes s s.launch := by
  have h := (fixRound_goes s).trans (reportFixing_goes _)
  exact .ite' (fun _ => h.trans (fieldClose_goes ..)) fun _ => h

theorem fieldSync_goes (s : State) : Goes s s.fieldSync := by
  have note : Goes s s.noteSync := setRound_goes s _ fun hr => by
    rw [roundRange_iff] at hr ⊢
    exact ⟨by simp, hr.2⟩
  exact .ite' (fun _ => .refl s) fun _ => (note.trans (withdraw_goes ..)).trans (launch_goes _)

theorem declareSyncLoss_goes (s : State) : Goes s s.declareSyncLoss := by
  have h : Goes s { s with round := { s.round with flywheel := 3, sync := .lost } } := setRound_goes s _ fun hr => by
    rw [roundRange_iff] at hr ⊢
    exact ⟨by simp, hr.2⟩
  exact h.trans (raise_goes ..)

theorem countFlywheel_goes (s : State) : Goes s s.countFlywheel :=
  .ite' (fun _ => declareSyncLoss_goes s) fun _ => setRound_goes s _ fun hr => by
    rw [roundRange_iff] at hr ⊢
    exact ⟨by simp, hr.2⟩

theorem flywheel_goes (s : State) : Goes s s.flywheel :=
  .ite fun _ => ((launch_goes s).trans
    (setRound_goes _ { s.launch.round with reference := none } fun h => h)).trans (countFlywheel_goes _)

theorem fieldHead_goes (s : State) (f : Field) : Goes s (s.fieldHead f) := .ite fun _ => setRound_goes s _ id

theorem roundEnd_goes (s : State) (f : Field) : Goes s (s.roundEnd f) :=
  .ite fun _ => (setRound_goes s { s.round with phase := .complete, placed := [] } id).trans (fieldClose_goes ..)

theorem ownReturn_goes (s : State) (t : Telegram) : Goes s (s.ownReturn t) := by
  unfold State.ownReturn
  split
  · next placed _ => exact (setRound_goes s { s.round with placed := placed } id).trans (undelivered_goes ..)
  · exact .refl s

/-! ### Resets -/

/-- What holds after a full reset holds whatever stood before. -/
theorem fullReset_keeps (s : State) (p : Pins) : Keeps s (State.fullReset { s with pins := p }) where
  alarms _ := show ({} : AlarmUnit).sound = true by decide
  store _ := show ({} : SnapshotBuffer).withinSize = true by decide
  round _ := show ({} : RoundMaster).withinRange = true by decide
  chains _ := show State.chainsSound {} = true by decide
  banks := ⟨fun _ => show ({} : CueEngine).sound = true by decide, fun _ _ => show ({} : CueEngine).inOrder = true by decide⟩
  settled _ _ _ := show ({} : CueEngine).settled = true by decide

theorem fullReset_goes (s : State) (p : Pins) : Goes s (State.fullReset { s with pins := p }) :=
  { fullReset_keeps s p with pending := rfl, inputs := rfl, time := le_rfl }

theorem chainCleared_sound (r : ChainRecord) : RecordSound r.cleared := by
  simp [RecordSound, ChainRecord.cleared, withinRange_iff, faultSound_iff]

theorem alarmsCleared_sound (a : AlarmUnit) : a.cleared.sound = true := by
  simp [AlarmUnit.sound, AlarmUnit.cleared, strictlyNested, AlarmUnit.almWanted, AlarmUnit.isPending, AlarmUnit.isInService]

/-- What CLEAR makes of every block but the cue engine (R201). -/
def clearedBut (s : State) (r : Reply) : State :=
  { s.clearBlocks.queueReplies [r] with cues := s.cues }

theorem clearedBut_goes (s : State) (r : Reply) : Goes s (clearedBut s r) where
  alarms _ := alarmsCleared_sound s.alarms
  store _ := by simp [clearedBut, State.clearBlocks, State.queueReplies, SnapshotBuffer.withinSize, SnapshotBuffer.cleared,
    SnapshotBuffer.cancel, cellsHeld]
  round h := by
    rw [roundRange_iff] at h ⊢
    simp [clearedBut, State.clearBlocks, State.queueReplies, RoundMaster.cleared]
  chains _ := by
    rw [chainsSound_iff]
    intro n
    have e : (clearedBut s r).chain n = (s.chain n).cleared := mapTable_chain s _ n
    rw [e]
    exact chainCleared_sound _
  banks := .of_briefs rfl rfl
  settled _ _ := settled_of_briefs (t := clearedBut s r) rfl
  pending := rfl
  inputs := rfl
  time := le_rfl

theorem cuesCleared_kept (s : State) : BanksKept s { s with cues := s.cues.cleared } := by
  have hb : State.briefs { s with cues := s.cues.cleared } = (s.cues.live.map Cue.atEntry).map Cue.brief := rfl
  refine ⟨fun h => ?_, fun h ho => ?_⟩
  · simp only [CueEngine.sound, bankSound, CueEngine.cleared, List.map_map, List.length_map, Bool.and_eq_true] at h ⊢
    exact h
  · rw [inOrder_iff] at ho ⊢
    refine ⟨behind_of_waiting fun b hbm => ?_, ho.2⟩
    rw [hb] at hbm
    obtain ⟨c, hc, rfl⟩ := List.mem_map.mp hbm
    obtain ⟨d, -, rfl⟩ := List.mem_map.mp hc
    rfl

theorem clear_goes (s : State) (r : Reply) : Goes s ((s.clearBlocks.queueReplies [r]).carryOut
    (s.clearBlocks.queueReplies [r]).eligibleAll) := by
  refine (clearedBut_goes s r).trans (restart_goes (clearedBut s r) s.cues.cleared (cuesCleared_kept _) fun _ c hc => ?_)
  obtain ⟨d, -, rfl⟩ := List.mem_map.mp hc
  rfl

end Sys2Proof.Proofs.Steps
end

section
/-! What every step keeps, concluded: the desk commands, the telegrams received, the commands and the idle sample period. -/

namespace Sys2Proof.Proofs.Steps

open Sys2Proof Sys2Proof.Machine Sys2Proof.Proofs.Tasks Sys2Proof.Proofs.Handling

/-! ### Edits of the PRESET bank (R62 to R67) -/

/-- The ids of a bank, apart and at most 64, and its cues at their entry values. -/
def BankGood (l : List Cue) : Prop := (l.map (fun c => c.fields.id)).Nodup ∧ l.length ≤ 64

/-- An edit that keeps the PRESET bank sound and at entry values keeps every invariant. -/
theorem setPreset_goes (s : State) (l : List Cue) (h : BankGood s.cues.preset → BankGood l)
    (he : AtEntry s.cues.preset → AtEntry l) : Goes s (s.setPreset l) :=
  { Goes.refl s with
    alarms := id, store := id, round := id, chains := id
    banks := by
      refine ⟨fun hs => ?_, fun _ ho => ?_⟩
      · rw [sound_iff] at hs ⊢
        have := h ⟨hs.2.1, hs.2.2.2⟩
        exact ⟨hs.1, this.1, hs.2.2.1, this.2⟩
      · rw [inOrder_iff] at ho ⊢
        exact ⟨ho.1, he ho.2⟩
    settled := fun _ _ => id }

theorem insertBefore_perm (c : Cue) (id : CueId) : ∀ l : List Cue, (∃ x ∈ l, x.fields.id = id) →
    (insertBefore c id l).Perm (c :: l)
  | [], h => by simp at h
  | x :: rest, h => by
    rw [insertBefore]
    by_cases hx : x.fields.id = id
    · simp [hx]
    · have hr : ∃ y ∈ rest, y.fields.id = id := by simpa [hx] using h
      rw [if_neg hx]
      exact ((insertBefore_perm c id rest hr).cons x).trans (List.Perm.swap ..)

theorem findCue_isNone_iff (l : List Cue) (id : CueId) : (findCue l id).isNone = true ↔ ∀ x ∈ l, x.fields.id ≠ id := by
  simp [findCue]

theorem findCue_isSome_iff (l : List Cue) (id : CueId) : (findCue l id).isSome = true ↔ ∃ x ∈ l, x.fields.id = id := by
  simp [findCue]

theorem replaceCue_ids (c : Cue) (l : List Cue) :
    (replaceCue c l).map (fun x => x.fields.id) = l.map (fun x => x.fields.id) := by
  simp only [replaceCue, List.map_map]
  refine List.map_congr_left fun x _ => ?_
  by_cases hx : x.fields.id = c.fields.id <;> simp [hx]

theorem mem_replaceCue {c x : Cue} {l : List Cue} (h : x ∈ replaceCue c l) : x = c ∨ x ∈ l := by
  obtain ⟨y, hy, rfl⟩ := List.mem_map.mp h
  by_cases hc : y.fields.id == c.fields.id
  · simp [hc]
  · simp [hc, hy]

/-- What a placement makes: the new cue with the cues that stood, or the new cue in another's place (R64). -/
theorem placeCue_cases {l l' : List Cue} {c : Cue} {before : Option CueId} (h : placeCue l c before = .inl l') :
    l'.Perm (c :: l) ∧ l.length < 64 ∧ (∀ x ∈ l, x.fields.id ≠ c.fields.id) ∨ l' = replaceCue c l := by
  unfold placeCue at h
  split at h
  · next hf => split at h <;> cases h
               exact .inl ⟨List.perm_append_singleton .., by omega, by
                 rw [← findCue_isNone_iff]; simpa using hf⟩
  · next b hf =>
    split at h
    · cases h
    · next hb =>
      split at h <;> cases h
      refine .inl ⟨insertBefore_perm _ _ _ ?_, by omega, by rw [← findCue_isNone_iff]; simpa using hf⟩
      rw [← findCue_isSome_iff]
      simpa [Option.isSome_iff_ne_none] using hb
  · exact .inr (Sum.inl.inj h).symm
  · split at h
    · cases h
    · split at h <;> cases h
      exact .inr rfl

theorem placeCue_good {l l' : List Cue} {c : Cue} {before : Option CueId} (h : placeCue l c before = .inl l') (hl : BankGood l) :
    BankGood l' := by
  rcases placeCue_cases h with ⟨hp, hn, ha⟩ | rfl
  · refine ⟨(hp.map _).nodup_iff.mpr ?_, by rw [hp.length_eq]; simpa using hn⟩
    exact List.nodup_cons.mpr ⟨by simpa using ha, hl.1⟩
  · exact ⟨by rw [replaceCue_ids]; exact hl.1, by simpa [replaceCue] using hl.2⟩

theorem placeCue_atEntry {l l' : List Cue} {c : Cue} {before : Option CueId} (h : placeCue l c before = .inl l')
    (hc : c.runtime = {}) (hl : AtEntry l) : AtEntry l' := by
  intro x hx
  have hx' : x = c ∨ x ∈ l := by
    rcases placeCue_cases h with ⟨hp, -, -⟩ | rfl
    · simpa using hp.mem_iff.mp hx
    · exact mem_replaceCue hx
  rcases hx' with rfl | hx'
  · exact hc
  · exact hl x hx'

theorem loadPreset_goes (s : State) (p : LoadParams) : Goes s (s.loadPreset p).1 := by
  unfold State.loadPreset
  split
  · exact .refl s
  · split
    · exact .refl s
    · next hp =>
      split
      · exact setPreset_goes s _ (placeCue_good hp) (placeCue_atEntry hp rfl)
      · exact .refl s

theorem deletePreset_goes (s : State) (id : CueId) : Goes s (s.deletePreset id).1 := by
  unfold State.deletePreset
  split
  · exact .refl s
  · split
    · exact .refl s
    · split
      · exact .refl s
      · refine setPreset_goes s _ (fun h => ⟨?_, (List.length_filter_le ..).trans h.2⟩) fun h c hc =>
          h c (List.mem_of_mem_filter hc)
        exact h.1.sublist ((List.filter_sublist).map _)

/-! ### The desk handlers -/

/-- What a desk command may do: what every operation does, its reply only added to a class 5 that it has left as it was. -/
def Obeys (h : Handler) : Prop :=
  ∀ p s t a, h p s = some (t, a) → Goes s t ∧ (t.round.replies = s.round.replies ∨ a = .silent)

theorem Obeys.of_state {h : Handler} (hs : ∀ p s t a, h p s = some (t, a) → t = s) : Obeys h := fun p s t a e => by
  rw [hs p s t a e]
  exact ⟨.refl s, .inl rfl⟩

/-- A command that changes nothing but by one operation, which leaves class 5. -/
theorem obeys_of_eq {s t u : State} (h : Goes s u) (hr : u.round.replies = s.round.replies) (e : t = u) (a : Answer) :
    Goes s t ∧ (t.round.replies = s.round.replies ∨ a = .silent) := e ▸ ⟨h, .inl hr⟩

theorem obeys_refl {s t : State} (e : t = s) (a : Answer) : Goes s t ∧ (t.round.replies = s.round.replies ∨ a = .silent) :=
  obeys_of_eq (.refl s) rfl e a

theorem carryOut_replies (s : State) (tasks : List Task) : (s.carryOut tasks).round.replies = s.round.replies :=
  (carryOut_cuesOnly s tasks).replies

theorem loadPreset_replies (s : State) (p : LoadParams) : (s.loadPreset p).1.round.replies = s.round.replies := by
  unfold State.loadPreset
  split
  · rfl
  · split
    · rfl
    · split <;> rfl

theorem deletePreset_replies (s : State) (id : CueId) : (s.deletePreset id).1.round.replies = s.round.replies := by
  unfold State.deletePreset
  split
  · rfl
  · split
    · rfl
    · split <;> rfl

theorem loadCue_obeys : Obeys loadCue := by
  intro p s t a h
  unfold loadCue at h
  split at h
  · dsimp only at h
    split at h
    · cases h; exact obeys_refl rfl _
    · have e := congrArg Prod.fst (Option.some.inj h)
      exact obeys_of_eq (loadPreset_goes ..) (loadPreset_replies ..) e.symm _
  · cases h

theorem deleteCue_obeys : Obeys deleteCue := by
  intro p s t a h
  unfold deleteCue at h
  split at h
  · split at h
    · cases h; exact obeys_refl rfl _
    · have e := congrArg Prod.fst (Option.some.inj h)
      exact obeys_of_eq (deletePreset_goes ..) (deletePreset_replies ..) e.symm _
  · cases h

theorem clearBank_obeys : Obeys clearBank := by
  intro p s t a h
  unfold clearBank at h
  split at h
  · split at h <;> cases h
    · exact obeys_refl rfl _
    · exact obeys_of_eq (setPreset_goes s [] (fun _ => ⟨by simp, by simp⟩) (fun _ _ hc => by simp at hc)) rfl rfl _
  · cases h

theorem swapBanks_replies (s : State) : s.swapBanks.round.replies = s.round.replies := by
  unfold State.swapBanks
  dsimp only
  split
  · exact carryOut_replies ..
  · rfl

theorem swap_obeys : Obeys swap := by
  intro p s t a h
  unfold swap at h
  split at h
  · split at h <;> cases h
    · exact obeys_refl rfl _
    · exact obeys_of_eq (swapBanks_goes s) (swapBanks_replies s) rfl _
  · cases h

theorem cancelSwap_obeys : Obeys cancelSwap := by
  intro p s t a h
  unfold cancelSwap at h
  split at h <;> cases h
  refine ⟨.aside rfl rfl id (fun _ => rfl) rfl rfl rfl rfl le_rfl, .inl rfl⟩

theorem abandon_obeys : Obeys abandon := by
  intro p s t a h
  unfold abandon at h
  split at h
  · dsimp only at h
    split at h
    · cases h; exact obeys_refl rfl _
    · split at h <;> cases h
      · exact obeys_refl rfl _
      · exact obeys_of_eq (carryOut_goes ..) (carryOut_replies ..) rfl _
  · cases h

theorem giveTake_replies (s : State) : s.giveTake.round.replies = s.round.replies := by
  unfold State.giveTake
  split
  · rfl
  · exact carryOut_replies ..

theorem take_obeys : Obeys take := by
  intro p s t a h
  unfold take at h
  split at h <;> cases h
  exact obeys_of_eq (giveTake_goes s) (giveTake_replies s) rfl _

theorem allStop_replies (s : State) : s.allStop.round.replies = s.round.replies := carryOut_replies ..

theorem allStop_obeys : Obeys Machine.allStop := by
  intro p s t a h
  unfold Machine.allStop at h
  split at h <;> cases h
  exact obeys_of_eq (allStop_goes s) (allStop_replies s) rfl _

theorem configureChain_replies (s : State) (n : ChainNo) (c : ChainConfig) :
    (s.configureChain n c).round.replies = s.round.replies := by
  unfold State.configureChain
  dsimp only
  have h : (if (s.chain n).config.enabled && !c.enabled then (s.setChain n { s.chain n with config := c }).disableChain n
      else s.setChain n { s.chain n with config := c }).round.replies = s.round.replies := by
    split
    · exact (disableChain_spec ..).1.replies
    · rfl
  split <;> exact h

theorem setChain_obeys : Obeys Machine.setChain := by
  intro p s t a h
  unfold Machine.setChain at h
  split at h
  · split at h <;> cases h
    · exact obeys_of_eq (configureChain_goes ..) (configureChain_replies ..) rfl _
    · exact obeys_refl rfl _
  · cases h

theorem clearFault_replies (s : State) (n : ChainNo) : (s.clearFault n).round.replies = s.round.replies := by
  obtain ⟨r, h, -⟩ := clearFault_spec s n
  exact h.1.replies

theorem clearFault_obeys : Obeys Machine.clearFault := by
  intro p s t a h
  unfold Machine.clearFault at h
  split at h
  · split at h
    · cases h; exact obeys_refl rfl _
    · split at h
      · cases h; exact obeys_refl rfl _
      · split at h <;> cases h
        · exact obeys_refl rfl _
        · exact obeys_of_eq (clearFault_goes ..) (clearFault_replies ..) rfl _
  · cases h

theorem configureGroup_goes (s : State) (g : GroupId) (m : Vector (Option ChainNo) 4) : Goes s (s.configureGroup g m).1 := by
  unfold State.configureGroup
  split
  · exact .refl s
  · split
    · exact .refl s
    · exact (setGroup_goes ..).trans (deriveHolder_goes ..)

theorem configureGroup_replies (s : State) (g : GroupId) (m : Vector (Option ChainNo) 4) :
    (s.configureGroup g m).1.round.replies = s.round.replies := by
  unfold State.configureGroup
  split
  · rfl
  · split
    · rfl
    · exact (deriveHolder_handsOn ..).1.replies.trans (by cases g <;> rfl)

theorem setGroup_obeys : Obeys Machine.setGroup := by
  intro p s t a h
  unfold Machine.setGroup at h
  split at h
  · split at h
    · split at h <;> cases h
      · exact obeys_refl rfl _
      · exact obeys_of_eq (configureGroup_goes ..) (configureGroup_replies ..) rfl _
    · cases h; exact obeys_refl rfl _
  · cases h

theorem setPermit_obeys : Obeys setPermit := by
  intro p s t a h
  unfold setPermit at h
  split at h
  · split at h <;> cases h
    · exact ⟨.aside rfl rfl id (fun _ => rfl) rfl rfl rfl rfl le_rfl, .inl rfl⟩
    · exact obeys_refl rfl _
  · cases h

theorem setWindow_obeys : Obeys setWindow := by
  intro p s t a h
  unfold setWindow at h
  split at h
  · split at h <;> cases h
    · exact ⟨.aside rfl rfl id (fun _ => rfl) rfl rfl rfl rfl le_rfl, .inl rfl⟩
    · exact obeys_refl rfl _
  · cases h

theorem clearWindow_obeys : Obeys clearWindow := by
  intro p s t a h
  unfold clearWindow at h
  split at h
  · split at h <;> cases h
    · exact ⟨.aside rfl rfl id (fun _ => rfl) rfl rfl rfl rfl le_rfl, .inl rfl⟩
    · exact obeys_refl rfl _
  · cases h

theorem changeWatch_replies (s : State) (k : WatchNo) (w : Watch) : (s.changeWatch k w).round.replies = s.round.replies := by
  unfold State.changeWatch
  dsimp only
  split
  · rfl
  · split
    · split
      · rfl
      · exact (raise_alarmsOnly ..).replies
    · exact (withdraw_alarmsOnly ..).replies

theorem setWatch_obeys : Obeys Machine.setWatch := by
  intro p s t a h
  unfold Machine.setWatch at h
  split at h
  · split at h
    · cases h; exact obeys_refl rfl _
    · split at h <;> cases h
      · exact obeys_of_eq (changeWatch_goes ..) (changeWatch_replies ..) rfl _
      · exact obeys_refl rfl _
  · cases h

theorem selectAndJudge_replies (s : State) : s.selectAndJudge.round.replies = s.round.replies :=
  (selectAndJudge_alarmsOnly s).replies

theorem setAlarm_obeys : Obeys setAlarm := by
  intro p s t a h
  unfold setAlarm at h
  split at h
  · split at h
    · split at h <;> cases h
      · exact obeys_refl rfl _
      · exact obeys_of_eq (configureAlarm_goes ..) (selectAndJudge_replies _) rfl _
    · cases h; exact obeys_refl rfl _
  · cases h

theorem setAlmThreshold_obeys : Obeys setAlmThreshold := by
  intro p s t a h
  unfold setAlmThreshold at h
  split at h <;> cases h
  exact obeys_of_eq (threshold_goes ..) rfl rfl _

theorem acknowledge_obeys : Obeys acknowledge := by
  intro p s t a h
  unfold acknowledge at h
  split at h
  · split at h
    · cases h; exact obeys_refl rfl _
    · split at h
      · cases h; exact obeys_of_eq (acknowledgeTop_goes s) (selectAndJudge_replies _) rfl _
      · split at h <;> cases h <;> exact obeys_refl rfl _
  · cases h

theorem cancel_held (b : SnapshotBuffer) : cellsHeld b.cancel.store = 0 := by simp [SnapshotBuffer.cancel, cellsHeld]

theorem configureSnapshots_goes (s : State) (t : TriggerSettings) : Goes s (s.configureSnapshots t) := by
  unfold State.configureSnapshots
  refine (setSnaps_goes s _ fun h => ?_).trans (judgeAlmostFull_goes _)
  rw [SnapshotBuffer.withinSize, decide_eq_true_eq] at h ⊢
  dsimp only
  split
  · exact h
  · rw [cancel_held]; omega

theorem configureSnapshots_replies (s : State) (t : TriggerSettings) :
    (s.configureSnapshots t).round.replies = s.round.replies := (judgeAlmostFull_alarmsOnly _).replies

theorem setSnapshot_obeys : Obeys setSnapshot := by
  intro p s t a h
  unfold setSnapshot at h
  split at h
  · split at h <;> cases h
    · exact obeys_refl rfl _
    · exact obeys_of_eq (configureSnapshots_goes ..) (configureSnapshots_replies ..) rfl _
  · cases h

theorem requestSnapshot_replies (s : State) (k : TriggerKind) (tag : Option (BitVec 16)) :
    (s.requestSnapshot k tag).round.replies = s.round.replies := (requestSnapshot_alarmsOnly ..).replies

theorem snap_obeys : Obeys snap := by
  intro p s t a h
  unfold snap at h
  split at h
  · split at h <;> cases h <;> exact obeys_of_eq (requestSnapshot_goes ..) (requestSnapshot_replies ..) rfl _
  · cases h

theorem readSnapshots_obeys : Obeys readSnapshots := by
  intro p s t a h
  unfold readSnapshots at h
  split at h
  · split at h <;> cases h
    · exact obeys_refl rfl _
    · exact ⟨setSnaps_goes _ _ fun h => h, .inl rfl⟩
  · cases h

theorem setRehearse_replies (s : State) (v : Bool) : (s.setRehearse v).round.replies = s.round.replies := by
  unfold State.setRehearse
  split
  · rfl
  · split
    · exact carryOut_replies ..
    · rfl

theorem setRehearse_obeys : Obeys Machine.setRehearse := by
  intro p s t a h
  unfold Machine.setRehearse at h
  split at h
  · split at h <;> cases h
    · exact obeys_of_eq (setRehearse_goes ..) (setRehearse_replies ..) rfl _
    · exact obeys_refl rfl _
  · cases h

theorem setWithholdLimit_obeys : Obeys setWithholdLimit := by
  intro p s t a h
  unfold setWithholdLimit at h
  split at h <;> cases h
  exact ⟨.aside rfl rfl id (fun _ => rfl) rfl rfl rfl rfl le_rfl, .inl rfl⟩

theorem clear_obeys : Obeys Machine.clear := by
  intro p s t a h
  unfold Machine.clear at h
  split at h <;> cases h
  exact ⟨clear_goes s _, .inr rfl⟩

theorem resetController_obeys : Obeys resetController := by
  intro p s t a h
  unfold resetController at h
  split at h <;> cases h
  exact ⟨fullReset_goes s s.pins, .inr rfl⟩

/-- The commands that only answer (section 11.3). -/
theorem reads_obey : ∀ h ∈ [readStatus, readChain, readGroup, readCue, readBank, readWatch, readPermit, readWindow, readAlarms],
    Obeys h := by
  intro h hm
  refine .of_state fun p s t a e => ?_
  simp only [List.mem_cons, List.not_mem_nil, or_false] at hm
  rcases hm with rfl | rfl | rfl | rfl | rfl | rfl | rfl | rfl | rfl
  all_goals
    simp only [readStatus, readChain, readGroup, readCue, readBank, readWatch, readPermit, readWindow, readAlarms] at e
    repeat' split at e
  all_goals cases e
  all_goals rfl

theorem handlerOf_obeys (b : Byte) (h : Handler) (e : handlerOf b = some h) : Obeys h := by
  unfold handlerOf at e
  split at e
  case h_1 => cases e; exact loadCue_obeys
  case h_2 => cases e; exact deleteCue_obeys
  case h_3 => cases e; exact clearBank_obeys
  case h_4 => cases e; exact swap_obeys
  case h_5 => cases e; exact cancelSwap_obeys
  case h_6 => cases e; exact abandon_obeys
  case h_7 => cases e; exact take_obeys
  case h_8 => cases e; exact allStop_obeys
  case h_9 => cases e; exact setChain_obeys
  case h_10 => cases e; exact setGroup_obeys
  case h_11 => cases e; exact clearFault_obeys
  case h_12 => cases e; exact setPermit_obeys
  case h_13 => cases e; exact setWindow_obeys
  case h_14 => cases e; exact clearWindow_obeys
  case h_15 => cases e; exact setWatch_obeys
  case h_16 => cases e; exact setAlarm_obeys
  case h_17 => cases e; exact setAlmThreshold_obeys
  case h_18 => cases e; exact setSnapshot_obeys
  case h_19 => cases e; exact setRehearse_obeys
  case h_20 => cases e; exact setWithholdLimit_obeys
  case h_21 => cases e; exact acknowledge_obeys
  case h_22 => cases e; exact snap_obeys
  case h_23 => cases e; exact readSnapshots_obeys
  case h_33 => cases e; exact clear_obeys
  case h_34 => cases e; exact resetController_obeys
  case h_35 => cases e
  all_goals
    cases e
    exact reads_obey _ (by simp)

/-- Replies added to class 5 where there is room for them (R191). -/
theorem queueReplies_goes (s : State) (l : List Reply) (h : s.round.withinRange = true → s.round.replies.length + l.length ≤ 16) :
    Goes s (s.queueReplies l) :=
  setRound_goes s { s.round with replies := s.round.replies ++ l } fun hr => by
    have := h hr
    rw [roundRange_iff] at hr ⊢
    exact ⟨hr.1, hr.2.1, hr.2.2.1, by simpa using this⟩

theorem numberParts_length (selector : Byte) (key : Option (BitVec 16)) (o : Option Reason) (f : Field) :
    ∀ (i : Nat) (l : List (List Byte)), (numberParts selector key o f i l).length = l.length
  | _, [] => rfl
  | i, _ :: rest => by simp [numberParts, numberParts_length selector key o f (i + 1) rest]

theorem queueAnswer_goes (s : State) (selector : Byte) (f : Field) (room : Nat) (a : Answer)
    (h : s.round.withinRange = true → a ≠ .silent → 0 < room ∧ s.round.replies.length + room ≤ 16) :
    Goes s (s.queueAnswer selector f room a) := by
  cases a with
  | silent => exact .refl s
  | reply key outcome parts =>
    unfold State.queueAnswer
    dsimp only
    split
    · exact queueReplies_goes _ _ fun hr => by have := h hr (by simp); simp; omega
    · next hp =>
      refine queueReplies_goes _ _ fun hr => ?_
      have := h hr (by simp)
      rw [numberParts_length]
      omega

theorem performDesk_goes (s : State) (selector : Byte) (params : List Byte) (work : Option Handler)
    (hw : ∀ h, work = some h → Obeys h) : Goes s (s.performDesk selector params work) := by
  have one (r : Reply) (hroom : s.replyRoom ≠ 0) : Goes s (s.queueReplies [r]) :=
    queueReplies_goes s [r] fun _ => by
      have : 16 - s.round.replies.length ≠ 0 := hroom
      simp only [List.length_singleton]
      omega
  unfold State.performDesk
  split
  · exact .refl s
  · next hroom =>
    split
    · exact one _ hroom
    · next h =>
      split
      · exact one _ hroom
      · next t a e =>
        obtain ⟨hg, hs⟩ := hw h rfl _ _ _ _ e
        refine hg.trans (queueAnswer_goes _ _ _ _ _ fun hr ha => ?_)
        have hq := hs.resolve_right ha
        have : 16 - s.round.replies.length ≠ 0 := hroom
        rw [hq]
        unfold State.replyRoom
        omega

theorem deskTelegram_goes (s : State) (p : List Byte) : Goes s (s.deskTelegram p) := by
  cases p with
  | nil => exact performDesk_goes s 0 [] none fun _ e => nomatch e
  | cons b rest => exact performDesk_goes _ _ _ _ fun h e => handlerOf_obeys b h e

/-! ### Telegrams and characters -/

theorem noteReported_goes (s : State) (x : Station) : Goes s (s.noteReported x) := setRound_goes s _ fun h => h

theorem chainReport_goes (s : State) (n : ChainNo) (p : List Byte) : Goes s (s.chainReport n p) :=
  .ite' (fun _ => .refl s) fun _ => (noteReported_goes ..).trans (chainArrival_goes ..)

theorem muxReport_goes (s : State) (g : GroupId) (p : List Byte) : Goes s (s.muxReport g p) :=
  .ite' (fun _ => .refl s) fun _ => (noteReported_goes ..).trans (muxArrival_goes ..)

theorem headReturn_goes (s : State) (p : List Byte) : Goes s (s.headReturn p) := by
  unfold State.headReturn
  split
  · exact fieldHead_goes ..
  · exact .refl s

theorem endReturn_goes (s : State) (p : List Byte) : Goes s (s.endReturn p) := by
  unfold State.endReturn
  split
  · exact roundEnd_goes ..
  · exact .refl s

theorem sortOwn_goes (s : State) (t : Telegram) : Goes s (s.sortOwn t) :=
  .ite' (fun _ => headReturn_goes ..) fun _ => .ite' (fun _ => endReturn_goes ..) fun _ => ownReturn_goes ..

theorem sortOther_goes (s : State) (t : Telegram) : Goes s (s.sortOther t) := by
  unfold State.sortOther
  split
  · exact .ite fun _ => chainReport_goes ..
  · exact .ite fun _ => muxReport_goes ..
  · exact .ite fun _ => deskTelegram_goes ..

theorem receiveTelegram_goes (s : State) (t : Telegram) : Goes s (s.receiveTelegram t) :=
  .ite' (fun _ => .ite' (fun _ => sortOwn_goes ..) fun _ => sortOther_goes ..) fun _ => .ite fun _ => headReturn_goes ..

theorem setAssembler_goes (s : State) (a : Assembler) : Goes s (s.setAssembler a) :=
  .aside rfl rfl id (fun _ => rfl) rfl rfl rfl rfl le_rfl

theorem received_goes (s : State) (act : State → State) (h : ∀ u, Goes u (act u)) : Goes s (s.received act) :=
  .ite' (fun _ => .refl s) fun _ => (setAssembler_goes ..).trans (h _)

theorem deskCommand_goes (s : State) (selector : Byte) (params : List Byte) (work : Option Handler)
    (hw : ∀ h, work = some h → Obeys h) : Goes s (s.deskCommand selector params work) :=
  received_goes s _ fun _ => .ite fun _ => performDesk_goes _ _ _ _ hw

theorem takeChar_goes (s : State) (c : RxChar) : Goes s (s.takeChar c) := by
  unfold State.takeChar
  split
  · exact .refl s
  · dsimp only
    split
    · exact (setAssembler_goes ..).trans (receiveTelegram_goes ..)
    · exact setAssembler_goes ..

/-! ### The commands -/

theorem elapse_goes (s : State) (n : Nat) : Goes s (s.elapse n) :=
  .aside rfl rfl id (fun _ => rfl) rfl rfl rfl rfl (Nat.le_add_right ..)

theorem setContacts_goes (s : State) (a b : Contact) : Goes s (s.setContacts a b) :=
  .aside rfl rfl id (fun _ => rfl) rfl rfl rfl rfl le_rfl

theorem deskRow_goes (s : State) (selector : Byte) (params : List Byte) (h : Handler) (e : handlerOf selector = some h) :
    Goes s (s.deskCommand selector params (some h)) :=
  deskCommand_goes _ _ _ _ fun _ e' => handlerOf_obeys selector _ (e.trans e')

/-- Every command answers a next state, and does what every operation does. -/
theorem exec_goes (c : Instr) (s : State) : ∃ t, exec c s = .next t ∧ Goes s t := by
  cases c with
  | powerUp => exact ⟨_, rfl, fullReset_goes s s.pins⟩
  | rstAssert => exact ⟨_, rfl, fullReset_goes s _⟩
  | rstRelease => exact ⟨_, rfl, .ite fun _ => fullReset_goes s _⟩
  | fieldSyncArrival => exact ⟨_, rfl, ((setContacts_goes ..).trans (elapse_goes ..)).trans (fieldSync_goes _)⟩
  | flywheelExpiry => exact ⟨_, rfl, ((setContacts_goes ..).trans (elapse_goes ..)).trans (flywheel_goes _)⟩
  | syncLoss => exact ⟨_, rfl, .ite fun _ => declareSyncLoss_goes s⟩
  | loopLoss => exact ⟨_, rfl, .ite fun _ => declareLoopLoss_goes s⟩
  | roundEndShiftedOut => exact ⟨_, rfl, elapse_goes ..⟩
  | telegramFail chars =>
    refine ⟨_, rfl, .ite' (fun _ => .refl s) fun _ => Goes.trans (t := s.noteStop) ?_ (foldl_goes _ takeChar_goes _ _)⟩
    exact .aside rfl rfl id (fun _ => rfl) rfl rfl rfl rfl le_rfl
  | ignoredTelegram => exact ⟨_, rfl, received_goes _ _ fun u => receiveTelegram_goes ..⟩
  | fieldHeadReturn => exact ⟨_, rfl, received_goes _ _ fun u => receiveTelegram_goes ..⟩
  | roundEndReturn => exact ⟨_, rfl, (setContacts_goes ..).trans (received_goes _ _ fun u => receiveTelegram_goes ..)⟩
  | ownTelegramReturn => exact ⟨_, rfl, received_goes _ _ fun u => receiveTelegram_goes ..⟩
  | chainReport => exact ⟨_, rfl, received_goes _ _ fun u => receiveTelegram_goes ..⟩
  | muxReport => exact ⟨_, rfl, received_goes _ _ fun u => receiveTelegram_goes ..⟩
  | swapTaken => exact ⟨_, rfl, execSwapTaken_goes s⟩
  | chainStale => exact ⟨_, rfl, .ite fun _ => settleOne_goes ..⟩
  | chainAbsent => exact ⟨_, rfl, .ite fun _ => settleOne_goes ..⟩
  | confirmTimeout => exact ⟨_, rfl, .ite fun _ => carryOut_goes ..⟩
  | withheldTooLong => exact ⟨_, rfl, .ite fun _ => carryOut_goes ..⟩
  | followDue => exact ⟨_, rfl, .ite fun _ => carryOut_goes ..⟩
  | watchLimitReached => exact ⟨_, rfl, .ite fun _ => sampleWatch_goes ..⟩
  | periodicSnapshot => exact ⟨_, rfl, .ite fun _ => periodicSnapshot_goes s⟩
  | unknownSelector b params => exact ⟨_, rfl, deskCommand_goes _ _ _ _ fun h e => handlerOf_obeys b h e⟩
  | _ => exact ⟨_, rfl, deskRow_goes _ _ _ _ rfl⟩

/-- Settles O2: every command's meaning is made of operations that leave the queue, the levels to come and the order of time. -/
theorem commandsLeaveTheQueueAlone : Obligations.CommandsLeaveTheQueueAlone := by
  intro c s
  obtain ⟨t, e, h⟩ := exec_goes c s
  exact ⟨t, e, h.pending, h.inputs, h.time⟩

/-! ### The step -/

theorem happen_goes (s : State) (x : Happening) : Goes s (s.happen x) := by
  cases x with
  | sync => exact fieldSync_goes s
  | expiry => exact flywheel_goes s
  | character c => exact takeChar_goes s c

theorem happenAll_goes (s : State) (l : List Happening) : Goes s (s.happenAll l) := by
  refine .ite' (fun _ => foldl_goes _ happen_goes _ _) fun _ => ?_
  exact Goes.trans (t := { s with choices := s.choices + 1 }) (.aside rfl rfl id (fun _ => rfl) rfl rfl rfl rfl le_rfl)
    (foldl_goes _ happen_goes _ _)

theorem sampleAll_goes (s : State) : Goes s s.sampleAll := by
  have rx : Goes s s.sampleReceiver.1 := .aside rfl rfl id (fun _ => rfl) rfl rfl rfl rfl le_rfl
  have fld (u : State) : Goes u u.sampleFld.1 := setRound_goes u _ fun h => h
  exact (rx.trans (fld _)).trans (happenAll_goes ..)

/-- Writes of the clock, the pins, the queue and the levels to come keep the invariants. -/
theorem Keeps.outside {s t : State} (h : t = { s with
    port := t.port, pins := t.pins, now := t.now, inputs := t.inputs, choices := t.choices, pending := t.pending }) :
    Keeps s t := by
  rw [h]
  exact ⟨id, id, id, id, .refl s, fun _ _ => id⟩

theorem nextPins_outside (s : State) : Keeps s (s.elapse 1).nextPins := by
  unfold State.nextPins
  split <;> exact .outside rfl

theorem tick_keeps (s : State) : Keeps s s.tick := by
  unfold State.tick
  dsimp only
  split
  · exact (nextPins_outside s).trans (fullReset_goes (s.elapse 1).nextPins (s.elapse 1).nextPins.pins).toKeeps
  · split
    · exact nextPins_outside s
    · exact (nextPins_outside s).trans (sampleAll_goes _).toKeeps

/-- A step keeps every invariant of a healthy block. -/
theorem step_keeps {s t : State} (h : step s = .next t) : Keeps s t := by
  unfold step at h
  split at h
  · cases h
    exact tick_keeps s
  · next c rest _ =>
    obtain ⟨u, e, hg⟩ := exec_goes c { s with pending := rest }
    cases e.symm.trans h
    exact (Keeps.outside rfl).trans hg.toKeeps

/-- Settles O6: what every operation of the tracker leaves in a record is in range, and so what a step leaves. -/
theorem stepKeepsChainRecordsInRange : Obligations.StepKeepsChainRecordsInRange := fun _ _ h e => (step_keeps e).chains h

/-- Settles O7: a snapshot joins only when it fits, the counts stop at 3, and classes 4 and 5 are filled within their sixteen. -/
theorem stepKeepsStoreAndQueuesInBounds : Obligations.StepKeepsStoreAndQueuesInBounds := fun _ _ hw hr e =>
  ⟨(step_keeps e).store hw, (step_keeps e).round hr⟩

/-- Settles O8: every edit keeps the ids apart, every task of the cue engine keeps the order, and each change of a cue's state is
followed by the tasks that settle its chain and its followers. -/
theorem stepKeepsBanksWellFormed : Obligations.StepKeepsBanksWellFormed := fun _ _ hs e =>
  ⟨(step_keeps e).banks.1 hs, (step_keeps e).banks.2 hs, (step_keeps e).settled hs⟩

/-! ### Nesting and the line in the words of R165 and R168 -/

theorem strictlyNested_iff : ∀ l : List Entry,
    strictlyNested l = true ↔ l.Pairwise (fun above below => above.level.val < below.level.val)
  | [] => by simp [strictlyNested]
  | e :: rest => by
    simp only [strictlyNested, Bool.and_eq_true, List.all_eq_true, decide_eq_true_eq, List.pairwise_cons, strictlyNested_iff rest]
    rfl

theorem level_eq (a : AlarmUnit) (src : Source) :
    a.level src = (if src = srcAirFault then 0 else a.settings[src].level) := rfl

theorem masked_iff (a : AlarmUnit) (src : Source) :
    a.masked src = true ↔ src ≠ srcAirFault ∧ a.settings[src].masked = true := by
  simp [AlarmUnit.masked]

theorem isPending_iff (a : AlarmUnit) (src : Source) : a.isPending src = true ↔ ∃ p, a.pending[src] = some p := by
  rw [AlarmUnit.isPending, Option.isSome_iff_exists]

theorem isInService_iff (a : AlarmUnit) (src : Source) : a.isInService src = true ↔ ∃ e ∈ a.inService, e.source = src := by
  simp [AlarmUnit.isInService]

theorem mem_allSources (src : Source) : src ∈ allSources := List.mem_finRange src

/-- The line in the words of R168; AIR FAULT, never masked, is wanted whenever it is pending (R157). -/
theorem almWanted_iff (a : AlarmUnit) : a.almWanted = true ↔
    (∃ p, a.pending[srcAirFault] = some p) ∨ (∃ e ∈ a.inService, e.source = srcAirFault)
      ∨ (∃ (src : Source) (p : PendingRecord), a.pending[src] = some p ∧ src ≠ srcAirFault
          ∧ a.settings[src].masked = false ∧ a.settings[src].level.val ≤ a.threshold.val)
      ∨ (∃ e ∈ a.inService, e.level.val ≤ a.threshold.val) := by
  have other : allSources.any (fun src => a.isPending src && !a.masked src && decide (a.level src ≤ a.threshold)) = true
      ↔ ∃ src, a.isPending src = true ∧ a.masked src = false ∧ a.level src ≤ a.threshold := by
    simp [mem_allSources, and_assoc]
  have listed : a.inService.any (fun e => decide (e.level ≤ a.threshold)) = true
      ↔ ∃ e ∈ a.inService, e.level.val ≤ a.threshold.val := by simp
  simp only [AlarmUnit.almWanted, Bool.or_eq_true, other, listed, isInService_iff]
  constructor
  · rintro (((h | h) | ⟨src, hp, hm, hl⟩) | h)
    · exact .inl ((isPending_iff ..).mp h)
    · exact .inr (.inl h)
    · by_cases hs : src = srcAirFault
      · exact .inl ((isPending_iff ..).mp (hs ▸ hp))
      · obtain ⟨p, hp⟩ := (isPending_iff ..).mp hp
        rw [level_eq, if_neg hs] at hl
        have hm' : ¬ a.masked src = true := by simp [hm]
        rw [masked_iff] at hm'
        exact .inr (.inr (.inl ⟨src, p, hp, hs, by simpa [hs] using hm', hl⟩))
    · exact .inr (.inr (.inr h))
  · rintro (h | h | ⟨src, p, hp, hs, hm, hl⟩ | h)
    · exact .inl (.inl (.inl ((isPending_iff ..).mpr h)))
    · exact .inl (.inl (.inr h))
    · refine .inl (.inr ⟨src, (isPending_iff ..).mpr ⟨p, hp⟩, ?_, ?_⟩)
      · rw [← Bool.not_eq_true, masked_iff, hm]
        simp
      · rw [level_eq, if_neg hs]; exact hl
    · exact .inr h

/-- Settles O5: raising, withdrawal, selection and every change of the settings leave the list nested and the line judged; and what
the two words of a sound alarm unit mean. -/
theorem stepKeepsAlarmsNestedAndLineRight : Obligations.StepKeepsAlarmsNestedAndLineRight := by
  refine ⟨fun _ _ h e => (step_keeps e).alarms h, fun a => ⟨?_, almWanted_iff a, fun src => ⟨level_eq a src, masked_iff a src⟩⟩⟩
  rw [AlarmUnit.sound, Bool.and_eq_true, strictlyNested_iff, beq_iff_eq]

end Sys2Proof.Proofs.Steps
end

section
/-! The step, the resets, the window of a round, and the bytes that name a numbered thing. -/

namespace Sys2Proof.Proofs.Basics

open Sys2Proof Sys2Proof.Machine

/-! ### The step -/

theorem step_pending {s : State} {c : Instr} {rest : List Instr} (h : s.pending = c :: rest) :
    step s = exec c { s with pending := rest } := by
  simp only [step, h]

theorem step_idle {s : State} (h : s.pending = []) : step s = .next s.tick := by
  simp only [step, h]

/-- Settles O1: the step takes the command from the front of the queue and runs it. -/
theorem stepRunsTheFrontCommand : Obligations.StepRunsTheFrontCommand := fun _ _ _ h => step_pending h

/-! ### Resets -/

theorem nextPins_none {s : State} (h : s.inputs = []) : s.nextPins = s := by
  simp only [State.nextPins, h]

theorem nextPins_some {s : State} {p : Pins} {rest : List Pins} (h : s.inputs = p :: rest) :
    s.nextPins = { s with pins := p, inputs := rest } := by
  simp only [State.nextPins, h]

/-- A change of RST found by a sample period resets fully (R19). -/
theorem tick_rst_changed {s : State} (h : (s.elapse 1).nextPins.pins.rst ≠ s.pins.rst) :
    s.tick = (s.elapse 1).nextPins.fullReset := by
  simp [State.tick, h]

/-- While RST is active a sample period passes time alone (R19). -/
theorem tick_held {s : State} (h : s.rstActive = true) (hr : (s.elapse 1).nextPins.pins.rst = false) :
    s.tick = (s.elapse 1).nextPins := by
  have hs : s.pins.rst = false := by simpa [State.rstActive] using h
  simp [State.tick, hr, hs, State.rstActive]

theorem deskCommand_resetController {s : State} (h : s.deskReady = true) :
    s.deskCommand 0x3F [] (some resetController) = s.fullReset :=
  CueBanks.deskCommand_silent h _ _ _ rfl

/-- Settles O3: each path is the full reset of the state as it stands at that instant, or leaves the block held. -/
theorem fullResetCommandsResetEveryBlock : Obligations.FullResetCommandsResetEveryBlock := by
  intro s
  refine ⟨rfl, rfl, fun h => ?_, fun h => ?_, fun h => ?_, fun pins rest hp hi hr => ?_, fun hp hi hr => ?_,
    fun pins rest hp hi ha hr => ?_⟩
  · exact congrArg Host.Outcome.next (if_pos h)
  · exact congrArg Host.Outcome.next (if_neg (by simp [h]))
  · exact congrArg Host.Outcome.next (deskCommand_resetController h)
  · have hn : (s.elapse 1).nextPins = { s.elapse 1 with pins := pins, inputs := rest } := nextPins_some hi
    rw [step_idle hp, tick_rst_changed (by rw [hn]; exact hr), hn]
    have hp' : (s.elapse 1).pending = State.reset.pending := hp
    simp only [State.fullReset, hp']
    rfl
  · have hn : (s.elapse 1).nextPins = s.elapse 1 := nextPins_none hi
    have hs : s.pins.rst = false := by simpa [State.rstActive] using hr
    rw [step_idle hp, tick_held hr (by rw [hn]; exact hs), hn]
    exact ⟨_, rfl⟩
  · have hn : (s.elapse 1).nextPins = { s.elapse 1 with pins := pins, inputs := rest } := nextPins_some hi
    rw [step_idle hp, tick_held ha (by rw [hn]; exact hr), hn]
    exact ⟨_, rfl⟩

/-- Settles O4: no alarm, snapshot or cue stands after a reset, every count is 0 and every chain ABSENT. -/
theorem resetStateIsSound : Obligations.ResetStateIsSound := by
  have alarms : State.reset.alarms.sound = true := by decide
  have store : State.reset.snaps.withinSize = true := by decide
  have round : State.reset.round.withinRange = true := by decide
  have chains : State.reset.chainsSound = true := by decide
  have cues : State.reset.cues.sound = true := by decide
  have order : State.reset.cues.inOrder = true := by decide
  have settled : State.reset.cues.settled = true := by decide
  simp [Obligations.ResetStateIsSound, State.sound, alarms, store, round, chains, cues, order, settled]

/-! ### FIELD HEAD -/

theorem word_wordBytes (f : BitVec 16) : word (f.setWidth 8) ((f >>> 8).setWidth 8) = f := by
  refine BitVec.eq_of_getLsbD_eq fun i hi => ?_
  rw [word]
  refine (BitVec.getLsbD_append (x := (f >>> 8).setWidth 8) (y := f.setWidth 8) (i := i)).trans ?_
  by_cases h8 : i < 8
  · simp [h8]
  · have hlow : i - 8 < 8 := by omega
    have hback : 8 + (i - 8) = i := by omega
    simp [h8, hlow, hback]

theorem headReturn_wordBytes (s : State) (f : Field) (flags : Byte) : s.headReturn (wordBytes f ++ [flags]) = s.fieldHead f :=
  congrArg s.fieldHead (word_wordBytes f)

theorem endReturn_wordBytes (s : State) (f : Field) : s.endReturn (wordBytes f) = s.roundEnd f :=
  congrArg s.roundEnd (word_wordBytes f)

/-- A FIELD HEAD of the controller is read alike with the window open and shut (R6, R15). -/
theorem receive_fieldHead (s : State) (dest : Station) (p : List Byte) :
    s.receiveTelegram (ownTelegram dest kindFieldHead p) = s.headReturn p := by
  cases h : s.windowOpen <;> simp [State.receiveTelegram, h, ownTelegram, State.sortOwn]

theorem fieldHead_opens {s : State} {f : Field} (hp : s.round.phase = .awaited) (hf : f = s.round.fieldCount) :
    s.fieldHead f = { s with round := { s.round with phase := .windowOpen, reported := [] } } := by
  simp [State.fieldHead, State.headOpens, hp, hf, State.fieldCount]

theorem fieldHead_ignored {s : State} {f : Field} (h : s.round.phase ≠ .awaited ∨ f ≠ s.round.fieldCount) :
    s.fieldHead f = s := by
  refine if_neg fun ho => ?_
  simp only [State.headOpens, State.fieldCount, Bool.and_eq_true, beq_iff_eq] at ho
  rcases h with h | h
  · exact h ho.1
  · exact h ho.2

/-- Settles O19: the telegram is received, sorted as the controller's own, and opens its window when it is awaited. -/
theorem fieldHeadOpensItsWindow : Obligations.FieldHeadOpensItsWindow := by
  intro s f flags hr
  have e : exec (.fieldHeadReturn f flags) s = .next (s.listening.fieldHead f) := by
    refine congrArg Host.Outcome.next ((received_inWindow hr _).trans ?_)
    rw [receive_fieldHead, headReturn_wordBytes]
  rw [e]
  exact ⟨fun hp hf => congrArg _ (fieldHead_opens (s := s.listening) hp hf),
    fun h => congrArg _ (fieldHead_ignored (s := s.listening) h)⟩

/-! ### Numbers, banks and yes/no values from bytes (section 12.3) -/

theorem byte_eq_iff (b c : Byte) : b = c ↔ b.toNat = c.toNat := BitVec.toNat_inj.symm

theorem indexOf_eq_none (n : Nat) (b : Byte) : indexOf n b = none ↔ b.toNat < 1 ∨ n < b.toNat := by
  rw [indexOf]
  split
  · next h => simp only [reduceCtorEq, false_iff]; omega
  · next h => simp only [true_iff]; omega

theorem exists_indexOf {n : Nat} {b : Byte} (h : 1 ≤ b.toNat ∧ b.toNat ≤ n) : ∃ i, indexOf n b = some i := by
  rw [indexOf, dif_pos h]
  exact ⟨_, rfl⟩

theorem yesNo_eq_none (b : Byte) : yesNo b = none ↔ 2 ≤ b.toNat := by
  rw [yesNo]
  simp only [byte_eq_iff]
  split
  · next h => simp only [reduceCtorEq, false_iff]; simp at h; omega
  · split
    · next h => simp only [reduceCtorEq, false_iff]; simp at h; omega
    · next h k => simp only [true_iff]; simp at h k; omega

theorem cadenceOf_eq_none (b : Byte) : cadenceOf b = none ↔ 2 ≤ b.toNat := by
  rw [← yesNo_eq_none, yesNo, cadenceOf]
  split
  · simp
  · split <;> simp

theorem bankOf_eq_none (b : Byte) : bankOf b = none ↔ ¬ (b = 1 ∨ b = 2) := by
  rw [bankOf]
  split
  · next h => exact iff_of_false (by simp) fun c => c (.inl h)
  · next h =>
    split
    · next k => exact iff_of_false (by simp) fun c => c (.inr k)
    · next k => exact iff_of_true rfl (not_or.mpr ⟨h, k⟩)

theorem groupOfCode_eq_none (b : Byte) : groupOfCode b = none ↔ ¬ (b = 1 ∨ b = 2) := by
  rw [groupOfCode]
  split
  · next h => exact iff_of_false (by simp) fun c => c (.inl h)
  · next h =>
    split
    · next k => exact iff_of_false (by simp) fun c => c (.inr k)
    · next k => exact iff_of_true rfl (not_or.mpr ⟨h, k⟩)

theorem sourceOf_eq_none (b : Byte) : sourceOf b = none ↔ 42 ≤ b.toNat := by
  rw [sourceOf]
  split
  · next h => simp only [reduceCtorEq, false_iff]; omega
  · next h => simp only [true_iff]; omega

theorem sourceOf_eq_some {b : Byte} {src : Source} : sourceOf b = some src ↔ b.toNat = src.val := by
  rw [sourceOf]
  split
  · next h => rw [Option.some.injEq, Fin.ext_iff]
  · next h => simp only [reduceCtorEq, false_iff]; omega

end Sys2Proof.Proofs.Basics
end

section
/-! The desk commands that set one thing, and what is read off windows and permits. -/

namespace Sys2Proof.Proofs.Settings

open Sys2Proof Sys2Proof.Machine Sys2Proof.Proofs.Basics

/-! ### The gate of the edits (R62) -/

/-- The reason that the gate gives, in the order of R62. -/
theorem editGate_refuses {s : State} {bank : Byte} {reason : Reason}
    (h : (¬ (bank = 1 ∨ bank = 2) ∧ reason = .badField)
      ∨ ((bank = 1 ∨ bank = 2) ∧ s.cues.swapPending = true ∧ reason = .busy)
      ∨ (bank = 1 ∧ s.cues.swapPending = false ∧ reason = .live)) : s.editGate bank = some reason := by
  rcases h with ⟨hb, rfl⟩ | ⟨hb, hp, rfl⟩ | ⟨rfl, hp, rfl⟩
  · simp [State.editGate, (bankOf_eq_none bank).mpr hb]
  · rcases hb with rfl | rfl <;> simp [State.editGate, bankOf, hp]
  · simp [State.editGate, bankOf, hp]

/-- Settles O28: the three edits ask the gate before anything else. -/
theorem editsPassTheGateInOrder : Obligations.EditsPassTheGateInOrder := by
  intro s bank a b reason hs h
  have hg : s.listening.editGate bank = some reason := editGate_refuses h
  refine ⟨congrArg Host.Outcome.next (deskCommand_refused hs _ _ _ _ _ ?_),
    congrArg Host.Outcome.next (deskCommand_refused hs _ _ _ _ _ ?_), fun rest hl => ?_⟩
  · simp only [deleteCue, hg]
  · simp only [clearBank, hg]
  · match rest, hl with
    | [chain, kind, ref, f0, f1, o0, o1, rel, w0, w1, permit, snap, sense, b0, b1], _ =>
      refine congrArg Host.Outcome.next (deskCommand_refused hs _ _ _ _ _ ?_)
      simp only [loadCue, hg]

/-! ### CLEAR FAULT (R31) -/

theorem stillFaulty_iff (v : Reported) : v.stillFaulty = true ↔ v.brk = true ∨ v.gate = true ∨ v.lamp = .failed := by
  simp [Reported.stillFaulty, or_assoc]

/-- The record that an operation on the listening state leaves, its reply aside (R190). -/
theorem answered_chain (s : State) (sel : Byte) (key : Option (BitVec 16)) (o : Option Reason) (d : List Byte) (n : ChainNo) :
    (s.answered sel key o d).chain n = s.chain n := rfl

/-- Settles O44: what the record shows decides which of the four outcomes it is. -/
theorem clearFaultRederivesTheState : Obligations.ClearFaultRederivesTheState := by
  intro s chain hs
  refine ⟨fun hb => ?_, fun n hn => ⟨fun hf => ?_, fun hf hv => ?_, fun hf hb hg hl => ?_⟩⟩
  · refine congrArg Host.Outcome.next (deskCommand_refused hs _ _ _ _ _ ?_)
    simp only [Machine.clearFault, (indexOf_eq_none 8 chain).mpr hb]
  · refine congrArg Host.Outcome.next (deskCommand_one hs _ _ _ _ none [] ?_ rfl)
    simp [Machine.clearFault, hn, hf, accept]
  · refine congrArg Host.Outcome.next (deskCommand_refused hs _ _ _ _ _ ?_)
    simp [Machine.clearFault, hn, hf, (stillFaulty_iff _).mpr hv]
  · have hv : (s.chain n).reported.stillFaulty = false := by
      rw [← Bool.not_eq_true, stillFaulty_iff]
      simp [hb, hg, hl]
    obtain ⟨r, hh, hr1, hr2, hr3, hr4, hr5⟩ := clearFault_spec s.listening n
    have same : ((s.listening.clearFault n).chain n).tracked = r.tracked := by
      rw [hh.2 n, State.chain_setChain_self]
    have frame : TrackingOnly s.listening (s.listening.clearFault n) :=
      TrackingOnly.trans (t := s.listening.setChain n r) rfl hh.1
    refine ⟨_, congrArg Host.Outcome.next
        (deskCommand_one (t := s.listening.clearFault n) hs _ _ _ (byteKey chain) none [] ?_ frame.fieldCount), ?_⟩
    · simp [Machine.clearFault, hn, hf, hv, accept]
    · refine ⟨(congrArg ChainRecord.state same).trans hr1, (congrArg ChainRecord.faultCause same).trans hr2,
        (congrArg ChainRecord.slipCount same).trans hr3, (congrArg ChainRecord.stale same).trans hr4,
        (congrArg ChainRecord.reported same).trans hr5, fun m hm => ?_, frame.answered _ _ _ _⟩
      rw [answered_chain, hh.2 m, State.chain_setChain_ne _ _ _ _ hm]
      rfl

/-! ### SET PERMIT and the permit check (R109 to R111) -/

/-- A window of the chain that holds the frame, with an effect of the kind asked for (R114). -/
theorem anyWindow_iff (s : State) (n : ChainNo) (frame : Frame) (wanted : WindowEffect → Bool) :
    s.anyWindow n frame wanted = true ↔ s.windowCovers n frame (fun e => wanted e = true) := by
  have active (w : Option Window) :
      (s.windowActive w n frame && (w.map (fun w => wanted w.effect)).getD false) = true
        ↔ ∃ x, w = some x ∧ (s.chain n).state ≠ .absent ∧ x.chain = n ∧ x.first.toNat ≤ frame.toNat
            ∧ frame.toNat ≤ x.last.toNat ∧ wanted x.effect = true := by
    cases w with
    | none => simp [State.windowActive]
    | some x =>
      simp only [State.windowActive, Option.map_some, Option.getD_some, Bool.and_eq_true, beq_iff_eq, bne_iff_ne,
        decide_eq_true_eq, Option.some.injEq, exists_eq_left']
      tauto
  rw [State.anyWindow, List.any_eq_true]
  simp only [active, State.windowCovers]
  constructor
  · rintro ⟨w, hw, x, rfl, ha, hx⟩
    obtain ⟨i, hi, e⟩ := List.mem_iff_getElem.mp hw
    exact ⟨ha, ⟨i, by simpa using hi⟩, x, by simpa using e, hx⟩
  · rintro ⟨ha, w, x, e, hx⟩
    exact ⟨some x, by rw [← e]; simp, x, rfl, ha, hx⟩

theorem windowCovers_congr (s : State) (n : ChainNo) (frame : Frame) {p q : WindowEffect → Prop} (h : ∀ e, p e ↔ q e) :
    s.windowCovers n frame p ↔ s.windowCovers n frame q := by
  simp only [State.windowCovers, h]

theorem inMark_iff (s : State) (n : ChainNo) :
    s.inMark n = true ↔ s.windowCovers n (s.chain n).reported.frame (fun e => e = .mark) :=
  (anyWindow_iff ..).trans (windowCovers_congr _ _ _ fun e => by cases e <;> simp [WindowEffect.isMark])

theorem cadenceMasked_iff (s : State) (n : ChainNo) (frame : Frame) :
    s.cadenceMasked n frame = true ↔ s.windowCovers n frame (fun e => ∃ late watch, e = .mask true late watch) :=
  (anyWindow_iff ..).trans (windowCovers_congr _ _ _ fun e => by cases e <;> simp [WindowEffect.masksCadence])

theorem lateMasked_iff (s : State) (n : ChainNo) : s.lateMasked n = true
    ↔ s.windowCovers n (s.chain n).reported.frame (fun e => ∃ cadence watch, e = .mask cadence true watch) :=
  (anyWindow_iff ..).trans (windowCovers_congr _ _ _ fun e => by cases e <;> simp [WindowEffect.masksLate])

theorem watchMasked_iff (s : State) (n : ChainNo) : s.watchMasked n = true
    ↔ s.windowCovers n (s.chain n).reported.frame (fun e => ∃ cadence late, e = .mask cadence late true) :=
  (anyWindow_iff ..).trans (windowCovers_congr _ _ _ fun e => by cases e <;> simp [WindowEffect.masksWatch])

/-- INCOMING READY, as R58 states it. -/
theorem incomingReady_iff (s : State) (n : ChainNo) : s.incomingReady n = true ↔ s.readyFor n := by
  unfold State.incomingReady State.readyFor
  dsimp only
  generalize (s.chain n).state = state
  generalize (s.chain n).commanded.motion = motion
  cases state <;> cases motion <;> simp [notEarlier, State.fieldCount]
  exact fun _ => decide_eq_true_iff

theorem holderFor_iff (s : State) (n m : ChainNo) :
    s.holderFor n = some m ↔ ∃ g i, s.groupOf n = some (g, i) ∧ (s.group g).holder = some m := by
  unfold State.holderFor
  cases s.groupOf n with
  | none => simp
  | some x => simp [Prod.ext_iff]

/-- Settles O45: the handler stores the table when every byte names something; the permit is the entry at its index. -/
theorem setPermitReplacesTheTable : Obligations.SetPermitReplacesTheTable := by
  refine ⟨fun s table a b c d e0 e1 hs => ⟨fun t w x y z ht hw hx hy hz => ?_, fun h => ?_⟩, fun s cue => ?_⟩
  · refine congrArg Host.Outcome.next (deskCommand_one hs _ _ _ _ none [] ?_ rfl)
    simp only [setPermit, ht, hw, hx, hy, hz, accept]
    rfl
  · refine congrArg Host.Outcome.next (deskCommand_refused hs _ _ _ _ _ ?_)
    simp only [setPermit]
    split
    · next ht hw hx hy hz => simp [ht, hw, hx, hy, hz] at h
    · rfl
  · refine ⟨fun h => ?_, fun t h => ?_, rfl, incomingReady_iff .., ?_, ?_, ?_, inMark_iff .., inMark_iff .., ?_, rfl, rfl,
      fun _ => rfl⟩
    · simp only [State.permitted, h]
    · simp only [State.permitted, h]
      rfl
    · simp [State.condition]
    · simp [State.condition]
    · simp only [State.condition, beq_iff_eq]
      exact holderFor_iff ..
    · simp [State.condition, State.holdActive, LineFilter.isClosed]

/-! ### SET WINDOW and CLEAR WINDOW (R113) -/

/-- The bytes that are no window effect (section 12.3). -/
theorem effectOf_eq_none {b : Byte} (h : b ≠ 0x01 ∧ (b.toNat ≤ 0x80 ∨ 0x87 < b.toNat)) : effectOf b = none := by
  revert h
  revert b
  decide

/-- The window stored has its bounds in order (R113). -/
theorem windowOf_spec (n : ChainNo) (first last : Frame) (e : WindowEffect) :
    (windowOf n first last e).chain = n ∧ (windowOf n first last e).effect = e
      ∧ (windowOf n first last e).first.toNat = min first.toNat last.toNat
      ∧ (windowOf n first last e).last.toNat = max first.toNat last.toNat := by
  unfold windowOf
  split
  · exact ⟨rfl, rfl, by simp only; omega, by simp only; omega⟩
  · exact ⟨rfl, rfl, by simp only; omega, by simp only; omega⟩

/-- Settles O46: the handlers, and each reading of the windows through the one window test. -/
theorem windowsAreSetInOrderAndCleared : Obligations.WindowsAreSetInOrderAndCleared := by
  refine ⟨fun s window chain f0 f1 l0 l1 effect hs => ⟨fun h => ?_, fun h => ?_, fun w hw => ⟨fun n e hn he => ?_, ?_⟩⟩,
    fun s n frame => ⟨inMark_iff .., cadenceMasked_iff .., lateMasked_iff .., watchMasked_iff ..⟩⟩
  · refine congrArg Host.Outcome.next (deskCommand_refused hs _ _ _ _ _ ?_)
    have h' : indexOf 16 window = none ∨ indexOf 8 chain = none ∨ effectOf effect = none := by
      rcases h with h | h | h | h
      · exact .inl ((indexOf_eq_none ..).mpr h)
      · exact .inr (.inl ((indexOf_eq_none ..).mpr (.inl h)))
      · exact .inr (.inl ((indexOf_eq_none ..).mpr (.inr h)))
      · exact .inr (.inr (effectOf_eq_none h))
    simp only [setWindow]
    split
    · next hw hn he => simp [hw, hn, he] at h'
    · rfl
  · refine congrArg Host.Outcome.next (deskCommand_refused hs _ _ _ _ _ ?_)
    simp only [clearWindow, (indexOf_eq_none 16 window).mpr h]
  · obtain ⟨h1, h2, h3, h4⟩ := windowOf_spec n (word f0 f1) (word l0 l1) e
    refine ⟨_, h1, h2, h3, h4, congrArg Host.Outcome.next (deskCommand_one hs _ _ _ _ none [] ?_ rfl)⟩
    simp only [setWindow, hw, hn, he, accept]
  · refine congrArg Host.Outcome.next (deskCommand_one hs _ _ _ _ none [] ?_ rfl)
    simp only [clearWindow, hw, accept]

/-! ### SET WITHHOLD LIMIT, SET ALM THRESHOLD, SET REHEARSE -/

theorem setRehearse_clear (s : State) : s.setRehearse false = { s with cues := { s.cues with rehearse := false } } := by
  unfold State.setRehearse
  cases h : s.cues.rehearse
  · simp [← h]
  · simp

/-- Settles O47: each handler writes its one figure. -/
theorem limitThresholdAndRehearseAreSet : Obligations.LimitThresholdAndRehearseAreSet := by
  intro s b hs
  refine ⟨congrArg Host.Outcome.next (deskCommand_one hs _ _ _ _ none [] rfl rfl),
    ⟨(s.listening.setAlarms { s.alarms with threshold := levelOf b }).judgeAlm,
      congrArg Host.Outcome.next (deskCommand_one hs _ _ _ _ none [] rfl rfl), rfl, rfl, rfl, rfl, rfl⟩,
    congrArg Host.Outcome.next (deskCommand_one hs _ _ _ _ none [] ?_ rfl), fun h => ?_, fun h => ?_⟩
  · simp [Machine.setRehearse, yesNo, setRehearse_clear, accept]
  · refine congrArg Host.Outcome.next (deskCommand_one hs _ _ _ _ none [] ?_ rfl)
    simp [Machine.setRehearse, yesNo, State.setRehearse, h, accept]
  · refine congrArg Host.Outcome.next (deskCommand_refused hs _ _ _ _ _ ?_)
    simp only [Machine.setRehearse, (yesNo_eq_none b).mpr h]

/-! ### Selection (R163) -/

/-- A choice is right for the candidates looked at: one of them, of smallest level, and the lowest number of those. -/
def RightChoice (a : AlarmUnit) (seen : List Source) (best : Option Source) : Prop :=
  (∀ x, best = some x → x ∈ seen ∧ ∀ y ∈ seen, a.level x < a.level y ∨ (a.level x = a.level y ∧ x ≤ y))
    ∧ (best = none → seen = [])

/-- Looking at a further source of higher number keeps the choice right. -/
theorem moreUrgent_right {a : AlarmUnit} {seen : List Source} {best : Option Source} {src : Source}
    (h : RightChoice a seen best) (hs : ∀ y ∈ seen, y < src) : RightChoice a (seen ++ [src]) (a.moreUrgent best src) := by
  cases best with
  | none =>
    have := h.2 rfl
    subst this
    exact ⟨fun x hx => by cases hx; simp, fun hn => by cases hn⟩
  | some b =>
    obtain ⟨hb, hmin⟩ := h.1 b rfl
    have hlt := hs b hb
    by_cases hl : a.level src < a.level b
    · refine ⟨fun x hx => ?_, fun hn => by simp [AlarmUnit.moreUrgent, hl] at hn⟩
      obtain rfl : src = x := by simpa [AlarmUnit.moreUrgent, hl] using hx
      refine ⟨by simp, fun y hy => ?_⟩
      rcases List.mem_append.mp hy with hy | hy
      · rcases hmin y hy with h' | ⟨h', -⟩
        · exact .inl (hl.trans h')
        · exact .inl (h' ▸ hl)
      · obtain rfl : y = src := by simpa using hy
        exact .inr ⟨rfl, le_rfl⟩
    · refine ⟨fun x hx => ?_, fun hn => by simp [AlarmUnit.moreUrgent, hl] at hn⟩
      obtain rfl : b = x := by simpa [AlarmUnit.moreUrgent, hl] using hx
      refine ⟨by simp [hb], fun y hy => ?_⟩
      rcases List.mem_append.mp hy with hy | hy
      · exact hmin y hy
      · obtain rfl : y = src := by simpa using hy
        rcases lt_or_eq_of_le (not_lt.mp hl) with h' | h'
        · exact .inl h'
        · exact .inr ⟨h', hlt.le⟩

theorem foldl_moreUrgent_right (a : AlarmUnit) : ∀ (l seen : List Source) (best : Option Source), RightChoice a seen best →
    (seen ++ l).Pairwise (· < ·) → RightChoice a (seen ++ l) (l.foldl a.moreUrgent best)
  | [], seen, best, h, _ => by simpa using h
  | x :: rest, seen, best, h, hp => by
    have hx : ∀ y ∈ seen, y < x := fun y hy => (List.pairwise_append.mp hp).2.2 y hy x (by simp)
    have := foldl_moreUrgent_right a rest (seen ++ [x]) _ (moreUrgent_right h hx) (by simpa using hp)
    simpa using this

theorem mostUrgent_right (a : AlarmUnit) : RightChoice a (allSources.filter a.candidate) a.mostUrgent := by
  have sorted : (allSources.filter a.candidate).Pairwise (· < ·) := (List.pairwise_lt_finRange 42).filter _
  have start : RightChoice a [] none := ⟨fun _ h => (nomatch h), fun _ => rfl⟩
  exact foldl_moreUrgent_right a _ [] none start sorted

/-- Settles O52: the choice stays right as selection goes through the candidates in the order of their numbers. -/
theorem selectionTakesTheMostUrgent : Obligations.SelectionTakesTheMostUrgent := by
  intro a
  have hr := mostUrgent_right a
  have mem (y : Source) : y ∈ allSources.filter a.candidate ↔ a.candidate y = true := by
    simp [Steps.mem_allSources]
  refine ⟨fun x hx => ?_, fun hn y => ?_⟩
  · obtain ⟨hm, hmin⟩ := hr.1 x hx
    exact ⟨(mem x).mp hm, fun y hy => hmin y ((mem y).mpr hy)⟩
  · have : ¬ y ∈ allSources.filter a.candidate := by simp [hr.2 hn]
    simpa [mem] using this

end Sys2Proof.Proofs.Settings
end

section
/-! Watches (Chapter 8) and the alarm settings (Chapter 9). -/

namespace Sys2Proof.Proofs.Watches

open Sys2Proof Sys2Proof.Machine Sys2Proof.Proofs.Basics

/-! ### A change of a watch (R154) -/

theorem changeWatch_same {s : State} {k : WatchNo} {w : Watch} (h : s.watches.watches[k].output = w.output) :
    s.changeWatch k w = s.setWatch k w := by
  unfold State.changeWatch
  dsimp only
  exact if_pos (beq_iff_eq.mpr h)

theorem changeWatch_rise {s : State} {k : WatchNo} {w : Watch} (h : s.watches.watches[k].output = false)
    (ho : w.output = true) (hm : s.watchMasked w.chain = false) :
    s.changeWatch k w = (s.setWatch k w).raise (srcWatch k) { chain := some w.chain, field := s.fieldCount } := by
  have hm' : (s.setWatch k w).watchMasked w.chain = false := hm
  unfold State.changeWatch
  dsimp only
  rw [if_neg (by rw [h, ho]; decide), if_pos ho, if_neg (by simp [hm'])]
  rfl

theorem changeWatch_fall {s : State} {k : WatchNo} {w : Watch} (h : s.watches.watches[k].output = true)
    (ho : w.output = false) : s.changeWatch k w = (s.setWatch k w).withdraw (srcWatch k) := by
  unfold State.changeWatch
  dsimp only
  rw [if_neg (by rw [h, ho]; decide), if_neg (by simp [ho])]

theorem changeWatch_alarmsOnly (s : State) (k : WatchNo) (w : Watch) : AlarmsOnly (s.setWatch k w) (s.changeWatch k w) := by
  unfold State.changeWatch
  dsimp only
  split
  · exact .refl _
  · split
    · split
      · exact .refl _
      · exact raise_alarmsOnly ..
    · exact withdraw_alarmsOnly ..

/-- The watch bank after a change: the one record. -/
theorem changeWatch_watches (s : State) (k : WatchNo) (w : Watch) :
    (s.changeWatch k w).watches = { s.watches with watches := s.watches.watches.set k w } :=
  (changeWatch_alarmsOnly s k w).watches

theorem changeWatch_watch_same (s : State) (k : WatchNo) (w : Watch) : (s.changeWatch k w).watches.watches[k] = w := by
  simp [changeWatch_watches]

theorem changeWatch_watch_other (s : State) {k j : WatchNo} (w : Watch) (h : j ≠ k) :
    (s.changeWatch k w).watches.watches[j] = s.watches.watches[j] := by
  have : k.val ≠ j.val := fun e => h (Fin.ext e.symm)
  simp [changeWatch_watches, this]

theorem changeWatch_seen (s : State) (k : WatchNo) (w : Watch) : (s.changeWatch k w).watches.seen = s.watches.seen := by
  rw [changeWatch_watches]

/-- The frame of a change: the alarm unit, on the state with the watch bank already changed. -/
theorem changeWatch_frame (s : State) (k : WatchNo) (w : Watch) :
    AlarmsOnly { s with watches := (s.changeWatch k w).watches } (s.changeWatch k w) := by
  rw [changeWatch_watches]
  exact changeWatch_alarmsOnly s k w

theorem changeWatch_notPending {s : State} {k : WatchNo} {w : Watch} (h : s.watches.watches[k].output = true)
    (ho : w.output = false) : (s.changeWatch k w).alarms.isPending (srcWatch k) = false := by
  rw [changeWatch_fall h ho]
  exact withdraw_notPending ..

/-! ### SET WATCH (R155) -/

/-- What SET WATCH stores: a watch at rest, its limit clamped. -/
theorem watchOf_spec {k : WatchNo} {a b c d e f : Byte} {l : BitVec 16} {w : Watch} (h : watchOf k a b c d e f l = some w) :
    w.count = 0 ∧ w.output = false ∧ w.previous = none
      ∧ w.limit = max 1 (min (if w.mode = .count then 65535 else 255) l.toNat) := by
  unfold watchOf at h
  simp only [Option.bind_eq_bind, Option.bind_eq_some_iff] at h
  obtain ⟨_, -, _, -, _, -, _, -, m, -, _, -, hw⟩ := h
  cases hw
  refine ⟨rfl, rfl, rfl, ?_⟩
  simp only [limitFor, clampNat, beq_iff_eq]

theorem watchOf_atRest {k : WatchNo} {a b c d e f : Byte} {l : BitVec 16} {w : Watch} (h : watchOf k a b c d e f l = some w) :
    w.atRest = w := by
  obtain ⟨hc, ho, hp, -⟩ := watchOf_spec h
  unfold Watch.atRest
  rw [← hc, ← ho, ← hp]

theorem signalFor_not_lower {k j : WatchNo} {b : Byte} (hj : k ≤ j) (h : signalOf b = some (.watch j)) : signalFor k b = none := by
  simp [signalFor, h, not_lt.mpr hj]

theorem signalOf_absent : signalOf 0xFF = none := by decide

/-- A cascade from a watch that is not lower is no value (R153, R155). -/
theorem watchOf_cascade {k j : WatchNo} {a b c d e f : Byte} {l : BitVec 16} (hj : k ≤ j)
    (h : signalOf c = some (.watch j) ∨ signalOf d = some (.watch j)) : watchOf k a b c d e f l = none := by
  rw [Option.eq_none_iff_forall_ne_some]
  intro w hw
  unfold watchOf at hw
  simp only [Option.bind_eq_bind, Option.bind_eq_some_iff] at hw
  obtain ⟨_, -, _, -, sig, hsig, q, hq, -⟩ := hw
  rcases h with h | h
  · rw [signalFor_not_lower hj h] at hsig
    cases hsig
  · have hd : d ≠ 0xFF := by
      rintro rfl
      rw [signalOf_absent] at h
      cases h
    rw [qualifierFor, if_neg hd, signalFor_not_lower hj h] at hq
    cases hq

theorem setWatch_none {s : State} {watch a b c d e f l0 l1 : Byte} {k : WatchNo} (hk : indexOf 16 watch = some k)
    (h : watchOf k a b c d e f (word l0 l1) = none) :
    Machine.setWatch [watch, a, b, c, d, e, f, l0, l1] s = some (s, refuse (byteKey watch) .badField) := by
  simp only [Machine.setWatch, hk, h]

/-- Settles O49: an accepted SET WATCH is a change of the watch to its new configuration at rest. -/
theorem setWatchPutsItAtRest : Obligations.SetWatchPutsItAtRest := by
  intro s watch enabled chain signal qualifier mode edge l0 l1 hs
  refine ⟨fun h => congrArg Host.Outcome.next (deskCommand_refused hs _ _ _ _ _ ?_),
    fun k hk => ⟨fun w hw => ?_, ?_, fun hn => ?_⟩⟩
  · simp only [Machine.setWatch, (indexOf_eq_none 16 watch).mpr h]
  · obtain ⟨hc, ho, hp, hl⟩ := watchOf_spec hw
    have frame := changeWatch_alarmsOnly s.listening k w
    refine ⟨_, congrArg Host.Outcome.next
        (deskCommand_one (t := s.listening.changeWatch k w) hs _ _ _ (byteKey watch) none [] ?_ frame.fieldCount),
      changeWatch_watch_same _ _ _, hc, ho, hp, hl, fun j hj => changeWatch_watch_other _ _ hj, ?_,
      fun hb => changeWatch_notPending (s := s.listening) hb ho, fun hb => ?_,
      (changeWatch_frame s.listening k w).answered ..⟩
    · simp only [Machine.setWatch, hk, hw, State.configureWatch, watchOf_atRest hw, accept]
    · exact changeWatch_seen s.listening k w
    · show (s.listening.changeWatch k w).alarms = s.alarms
      rw [changeWatch_same (s := s.listening) (hb.trans ho.symm)]
      rfl
  · rintro ⟨j, hj, h⟩
    exact congrArg Host.Outcome.next (deskCommand_refused hs _ _ _ _ _ (setWatch_none hk (watchOf_cascade hj h)))
  · exact congrArg Host.Outcome.next (deskCommand_refused hs _ _ _ _ _ (setWatch_none hk hn))

/-! ### The modes (R147 to R152) -/

theorem selectedEdge_rise (p level : Bool) : selectedEdge .rise (some p) level = true ↔ p = false ∧ level = true := by
  cases p <;> cases level <;> decide

theorem selectedEdge_fall (p level : Bool) : selectedEdge .fall (some p) level = true ↔ p = true ∧ level = false := by
  cases p <;> cases level <;> decide

theorem selectedEdge_both (p level : Bool) : selectedEdge .both (some p) level = true ↔ p ≠ level := by
  cases p <;> cases level <;> decide

theorem gapStep_edge (w : Watch) : gapStep w true = { count := 0, output := false } := rfl

theorem gapStep_quiet (w : Watch) :
    (gapStep w false).count = min w.limit (w.count + 1) ∧ ((gapStep w false).output = true ↔ w.limit ≤ w.count + 1) := by
  refine ⟨rfl, ?_⟩
  simp [gapStep]

theorem delayStep_agrees {w : Watch} {level : Bool} (h : level = w.output) :
    delayStep w level = { count := 0, output := w.output } := if_pos (by simp [h])

theorem delayStep_undelayed {w : Watch} {level : Bool} (h : level ≠ w.output) (hd : delayed w.edge level = false) :
    delayStep w level = { count := 0, output := level } := by
  simp [delayStep, h, hd]

theorem delayStep_delayed {w : Watch} {level : Bool} (h : level ≠ w.output) (hd : delayed w.edge level = true) :
    delayStep w level = if w.limit ≤ w.count + 1 then { count := 0, output := level, reached := true }
      else { count := w.count + 1, output := w.output } := by
  simp [delayStep, h, hd]

theorem oneshotStep_rest {w : Watch} (h : w.output = false) (edge : Bool) :
    oneshotStep w edge = if edge then { count := 0, output := true } else { count := w.count, output := false } := by
  simp [oneshotStep, h]

theorem oneshotStep_pulse {w : Watch} (h : w.output = true) (edge : Bool) :
    oneshotStep w edge = if w.limit ≤ w.count + 1 then { count := 0, output := false, reached := true }
      else { count := w.count + 1, output := true } := by
  simp [oneshotStep, h]

/-- Settles O50: the equations of the five modes, at a count below the limit or a GAP count at it. -/
theorem watchModesCountAsStated : Obligations.WatchModesCountAsStated := by
  intro w level _
  dsimp only
  generalize hedge : selectedEdge w.edge w.previous level = edge
  refine ⟨fun h => ?_, fun p h => ⟨fun e => ?_, fun e => ?_, fun e => ?_⟩, fun e => by simp [e, delayed],
    fun e => by simp [e, delayed], fun e => by simp [e, delayed], fun hm he => ?_, fun hm he hc => ?_,
    fun hm ho he => ?_, fun hlt => ⟨fun hm he => ?_, fun hm hl => ?_, fun hm hl hd => ?_, fun hm hl hd => ?_,
      fun hm ho he => ?_, fun hm ho => ?_, fun hm he => ?_, fun hm he => ?_, fun hm => ?_⟩⟩
  · rw [← hedge, h]; rfl
  · rw [← hedge, h, e]; exact selectedEdge_rise ..
  · rw [← hedge, h, e]; exact selectedEdge_fall ..
  · rw [← hedge, h, e]; exact selectedEdge_both ..
  · simp [modeStep, hm, hedge, he, gapStep_edge]
  · have := gapStep_quiet w
    simp only [modeStep, hm, hedge, he]
    exact ⟨this.1.trans (by omega), this.2.mpr (by omega)⟩
  · simp [modeStep, hm, hedge, he, oneshotStep_rest ho]
  · have := gapStep_quiet w
    simp only [modeStep, hm, hedge, he]
    exact ⟨this.1.trans (by omega), this.2.trans (by omega)⟩
  · simp [modeStep, hm, delayStep_agrees hl]
  · simp [modeStep, hm, delayStep_undelayed hl hd]
  · simp only [modeStep, hm, delayStep_delayed hl hd]
    split
    · rw [if_pos (by omega)]; exact ⟨rfl, rfl⟩
    · rw [if_neg (by omega)]; exact ⟨rfl, rfl⟩
  · simp [modeStep, hm, hedge, he, oneshotStep_rest ho]
  · simp only [modeStep, hm, oneshotStep_pulse ho]
    split
    · rw [if_pos (by omega)]; exact ⟨rfl, rfl⟩
    · rw [if_neg (by omega)]; exact ⟨rfl, rfl⟩
  · simp only [modeStep, hm, hedge, he, countStep, if_true]
    split
    · rw [if_pos (by omega)]; exact ⟨rfl, rfl⟩
    · rw [if_neg (by omega)]; exact ⟨rfl, rfl⟩
  · simp [modeStep, hm, hedge, he, countStep]
  · simp [modeStep, hm, hedge]

/-! ### The limit reached, taken alone -/

theorem sampleWatch_enabled {s : State} {k : WatchNo} (h : s.watches.watches[k].enabled = true) :
    s.sampleWatch k = s.changeWatch k (s.sampledWatch s.watches.watches[k]) := if_pos h

theorem sampledWatch_chain (s : State) (w : Watch) : (s.sampledWatch w).chain = w.chain := by
  unfold State.sampledWatch
  split <;> rfl

/-- What the limit's sample finds (R148 to R151). -/
theorem reachesLimit_elim {s : State} {w : Watch} (h : s.reachesLimit w = true) :
    w.enabled = true ∧ (s.sampledWatch w).output ≠ w.output := by
  simp only [State.reachesLimit, Bool.and_eq_true, bne_iff_ne] at h
  obtain ⟨⟨⟨he, hq⟩, -⟩, ho⟩ := h
  exact ⟨he, by simpa [State.sampledWatch, hq] using ho⟩

/-- Settles O51: the sample is a change of the watch to an output that differs. -/
theorem watchLimitChangesTheOutput : Obligations.WatchLimitChangesTheOutput := by
  intro s k h
  obtain ⟨he, ho⟩ := reachesLimit_elim h
  have same : (s.changeWatch k (s.sampledWatch s.watches.watches[k])).watches.watches[k] = s.sampledWatch s.watches.watches[k] :=
    changeWatch_watch_same ..
  refine ⟨s.changeWatch k (s.sampledWatch s.watches.watches[k]),
    congrArg Host.Outcome.next ((if_pos h).trans (sampleWatch_enabled he)), same, ?_, fun ht hm => ?_, fun hf => ?_,
    fun j hj => changeWatch_watch_other _ _ hj, changeWatch_seen .., changeWatch_frame ..⟩
  · rw [same]; exact ho
  · rw [same] at ht
    rw [ht] at ho
    rw [changeWatch_rise (Bool.eq_false_iff.mpr ho.symm) ht (by rw [sampledWatch_chain]; exact hm)]
    exact raise_stands ..
  · rw [same] at hf
    rw [hf] at ho
    exact changeWatch_notPending (Bool.not_eq_false _ ▸ ho.symm) hf

end Sys2Proof.Proofs.Watches

namespace Sys2Proof.Proofs.AlarmCommands

open Sys2Proof Sys2Proof.Machine Sys2Proof.Proofs.Basics

/-! ### Selection (R163, R164) -/

/-- The source that selection takes into service (R163). -/
def Enters (a : AlarmUnit) (x : Source) : Prop :=
  a.mostUrgent = some x ∧ (a.inService = [] ∨ ∃ top below, a.inService = top :: below ∧ a.level x < top.level)

theorem mayEnter_iff (a : AlarmUnit) (l : Level) :
    a.mayEnter l = true ↔ a.inService = [] ∨ ∃ top below, a.inService = top :: below ∧ l < top.level := by
  unfold AlarmUnit.mayEnter
  cases a.inService with
  | nil => simp
  | cons e rest => simp

theorem select_enters {s : State} {x : Source} {p : PendingRecord} (h : Enters s.alarms x) (hp : s.alarms.pending[x] = some p) :
    s.select = s.enterService x p := by
  unfold State.select
  rw [h.1]
  dsimp only
  rw [hp]
  exact if_pos ((mayEnter_iff ..).mpr h.2)

theorem select_stays {s : State} (h : ∀ x, ¬ Enters s.alarms x) : s.select = s := by
  rcases select_spec s with e | ⟨x, p, hm, -, hl, -⟩
  · exact e
  · exact absurd ⟨hm, (mayEnter_iff ..).mp hl⟩ (h x)

/-- What selection and judgment leave of the alarm unit and the notices, whichever source enters. -/
theorem selectAndJudge_enters (s : State) :
    (∀ x p, Enters s.alarms x → s.alarms.pending[x] = some p →
        s.selectAndJudge.alarms.inService
            = { source := x, level := s.alarms.level x, again := p.again, detail := p.detail } :: s.alarms.inService
          ∧ s.selectAndJudge.alarms.pending = s.alarms.pending.set x none
          ∧ s.selectAndJudge.round.notices
              = (if 16 ≤ s.round.notices.length then s.round.notices.drop 1 else s.round.notices)
                ++ [{ source := x, level := s.alarms.level x, again := p.again, detail := p.detail,
                      inService := s.alarms.inService.length + 1, field := s.round.fieldCount }])
      ∧ ((∀ x, ¬ Enters s.alarms x) → s.selectAndJudge.alarms.inService = s.alarms.inService
          ∧ s.selectAndJudge.alarms.pending = s.alarms.pending ∧ s.selectAndJudge.round.notices = s.round.notices) := by
  refine ⟨fun x p h hp => ?_, fun h => ?_⟩
  · rw [State.selectAndJudge, select_enters h hp]
    exact ⟨rfl, rfl, rfl⟩
  · rw [State.selectAndJudge, select_stays h]
    exact ⟨rfl, rfl, rfl⟩

/-! ### ACKNOWLEDGE (R166) and the bytes of a notice -/

theorem acknowledgeTop_cons {s : State} {e : Entry} {rest : List Entry} (h : s.alarms.inService = e :: rest) :
    s.acknowledgeTop = (s.setAlarms { s.alarms with inService := rest }).selectAndJudge := by
  rw [State.acknowledgeTop, h]
  rfl

theorem setAlarms_alarmsOnly (s : State) (l : List Entry) : AlarmsOnly s (s.setAlarms { s.alarms with inService := l }) := rfl

theorem current_eq_some {a : AlarmUnit} {src : Source} :
    a.current = some src ↔ ∃ e rest, a.inService = e :: rest ∧ e.source = src := by
  unfold AlarmUnit.current
  cases a.inService <;> simp

theorem sourceData_nil {a : AlarmUnit} (h : a.inService = []) : sourceData a.current = [0, 0] := by
  simp only [AlarmUnit.current, h]
  rfl

theorem sourceData_cons {a : AlarmUnit} {e : Entry} {rest : List Entry} (h : a.inService = e :: rest) :
    sourceData a.current = [1, byteOf e.source.val] := by
  simp only [AlarmUnit.current, h]
  exact congrArg (fun x : Byte => [x, byteOf e.source.val]) (show flagByte [true] = 1 by decide)

theorem wordBytes_eq (w : BitVec 16) : wordBytes w = [w.extractLsb' 0 8, w.extractLsb' 8 8] := by
  have low : w.setWidth 8 = w.extractLsb' 0 8 := by
    refine BitVec.eq_of_getLsbD_eq fun i hi => ?_
    simp
  have high : (w >>> 8).setWidth 8 = w.extractLsb' 8 8 := by
    refine BitVec.eq_of_getLsbD_eq fun i hi => ?_
    simp
  rw [wordBytes, low, high]

theorem entryBytes_eq (src : Source) (level : Level) (again : Bool) :
    entryBytes src level again = [BitVec.ofNat 8 src.val, BitVec.ofNat 8 (level.val + 128 * again.toNat)] := by
  cases again <;> rfl

/-- Settles O53: the acknowledgment is selection on the list without its top; the other answers only read. -/
theorem acknowledgeRemovesTheTopOnly : Obligations.AcknowledgeRemovesTheTopOnly := by
  intro s b hs
  refine ⟨fun h => ?_, fun src e rest hb hl he => ?_, fun src e rest hb hl he hin => ?_, fun src hb hin => ?_,
    fun n => ?_, fun d => ?_⟩
  · refine congrArg Host.Outcome.next (deskCommand_refused hs _ _ _ _ _ ?_)
    simp only [acknowledge, (sourceOf_eq_none b).mpr h]
  · have hc : s.listening.alarms.current = some src := current_eq_some.mpr ⟨e, rest, hl, he⟩
    have hack := acknowledgeTop_cons (s := s.listening) hl
    have frame : AlarmsOnly s.listening s.listening.acknowledgeTop := by
      rw [hack]
      exact (setAlarms_alarmsOnly ..).trans (selectAndJudge_alarmsOnly _)
    obtain ⟨enter, stay⟩ := selectAndJudge_enters (s.listening.setAlarms { s.listening.alarms with inService := rest })
    have hexec : exec (.acknowledge [b]) s = .next (s.listening.acknowledgeTop.answered 0x20 (byteKey b) none
        (sourceData s.listening.acknowledgeTop.alarms.current)) := by
      refine congrArg Host.Outcome.next
        (deskCommand_one (t := s.listening.acknowledgeTop) hs _ _ _ (byteKey b) none _ ?_ frame.fieldCount)
      simp only [acknowledge, hb, hc, if_true, acceptWith]
    refine ⟨_, hexec, fun x p hx hp => ?_, fun hx => ?_, ?_, ?_⟩
    · have := enter x p hx hp
      rw [← hack] at this
      exact this
    · have := stay hx
      rw [← hack] at this
      exact this
    · show s.listening.acknowledgeTop.alarms.alm = s.listening.acknowledgeTop.alarms.almWanted
      rw [hack]
      rfl
    · split
      · next h => rw [← sourceData_nil h]; exact frame.answered ..
      · next top below h => rw [← sourceData_cons h]; exact frame.answered ..
  · have hc : ¬ s.listening.alarms.current = some src := by
      rintro h
      obtain ⟨e', rest', hl', he'⟩ := current_eq_some.mp h
      cases hl.symm.trans hl'
      exact he he'
    refine congrArg Host.Outcome.next (deskCommand_refused hs _ _ _ _ _ ?_)
    have hin' : s.listening.alarms.isInService src = true := hin
    simp only [acknowledge, hb, if_neg hc, hin', if_true]
  · have hc : ¬ s.listening.alarms.current = some src := by
      rintro h
      obtain ⟨e, rest, hl, he⟩ := current_eq_some.mp h
      have : s.alarms.isInService src = true := (Steps.isInService_iff ..).mpr ⟨e, by
        rw [show s.alarms.inService = e :: rest from hl]; simp, he⟩
      rw [hin] at this
      cases this
    refine congrArg Host.Outcome.next (deskCommand_refused hs _ _ _ _ _ ?_)
    have hin' : s.listening.alarms.isInService src = false := hin
    simp only [acknowledge, hb, if_neg hc, hin', Bool.false_eq_true, if_false]
  · simp only [noticeTelegram, entryBytes_eq, wordBytes_eq, ownTelegram, byteOf, List.append_assoc, List.cons_append,
      List.nil_append]
  · obtain ⟨chain, group, cue, cause, field⟩ := d
    simp only [detailBytes, wordBytes_eq, byteOf, List.cons_append, List.nil_append]
    cases chain <;> rcases group with _ | (_ | _) <;> rfl

/-! ### SET ALARM (R167) -/

/-- The alarm unit with one setting replaced. -/
def withSetting (a : AlarmUnit) (src : Source) (x : Setting) : AlarmUnit := { a with settings := a.settings.set src x }

theorem configureAlarm_eq (s : State) (src : Source) (x : Setting) :
    s.configureAlarm src x = (s.setAlarms (withSetting s.alarms src x)).selectAndJudge := rfl

theorem withSetting_same (a : AlarmUnit) (src : Source) (x : Setting) : (withSetting a src x).settings[src] = x := by
  simp [withSetting]

theorem withSetting_other (a : AlarmUnit) {src y : Source} (x : Setting) (h : y ≠ src) :
    (withSetting a src x).settings[y] = a.settings[y] := by
  have : src.val ≠ y.val := fun e => h (Fin.ext e.symm)
  simp [withSetting, this]

theorem yesNo_of_accepted {b : Byte} {m : Bool} (h : yesNo b = some m) : ¬ 2 ≤ b.toNat := by
  rw [← yesNo_eq_none, h]
  simp

/-- Settles O54: an accepted SET ALARM is selection on the settings replaced. -/
theorem setAlarmReplacesTheSetting : Obligations.SetAlarmReplacesTheSetting := by
  intro s b level mask hs
  refine ⟨fun h => congrArg Host.Outcome.next (deskCommand_refused hs _ _ _ _ _ ?_), fun src m hb hsrc hm => ?_⟩
  · simp only [setAlarm]
    split
    · next src m hb hm =>
      have hzero : src = srcAirFault := by
        rcases h with rfl | h | h
        · exact (Option.some.inj hb).symm
        · rw [(sourceOf_eq_none b).mpr h] at hb; cases hb
        · exact absurd h (yesNo_of_accepted hm)
      rw [if_pos hzero]
    · rfl
  · let x : Setting := { level := levelOf level, masked := m }
    let t := s.listening.configureAlarm src x
    have hset : t.alarms.settings = (withSetting s.alarms src x).settings :=
      (selectAndJudge_alarmsOnly (s.listening.setAlarms (withSetting s.alarms src x))).alarmSettings
    have frame := selectAndJudge_alarmsOnly (s.listening.setAlarms (withSetting s.alarms src x))
    obtain ⟨enter, stay⟩ := selectAndJudge_enters (s.listening.setAlarms (withSetting s.alarms src x))
    have level_of (y : Source) : t.alarms.level y = (withSetting s.alarms src x).level y := by
      rw [Steps.level_eq, Steps.level_eq, hset]
    have masked_of (y : Source) : t.alarms.masked y = (withSetting s.alarms src x).masked y := by
      rw [AlarmUnit.masked, AlarmUnit.masked, hset]
    have hexec : exec (.setAlarm [b, level, mask]) s = .next (t.answered 0x17 (byteKey b) none []) := by
      refine congrArg Host.Outcome.next (deskCommand_one (t := t) hs _ _ _ (byteKey b) none [] ?_ frame.fieldCount)
      simp only [setAlarm, hb, hm, if_neg hsrc, accept]
      rfl
    refine ⟨_, hexec, ?_, ?_, fun y hy => ⟨?_, ?_, ?_⟩, ?_, rfl, frame.threshold, selectAndJudge_snaps _, ?_⟩
    · show (t.alarms.level src).val = _
      rw [level_of, Steps.level_eq, if_neg hsrc, withSetting_same]
      rfl
    · show t.alarms.masked src = m
      rw [masked_of, AlarmUnit.masked, withSetting_same]
      simp [hsrc, x]
    · show t.alarms.settings[y] = _
      rw [hset, withSetting_other _ _ hy]
    · show t.alarms.level y = _
      rw [level_of, Steps.level_eq, Steps.level_eq, withSetting_other _ _ hy]
    · show t.alarms.masked y = _
      rw [masked_of, AlarmUnit.masked, AlarmUnit.masked, withSetting_other _ _ hy]
    · have e : ({ s.alarms with settings := (t.answered 0x17 (byteKey b) none []).alarms.settings } : AlarmUnit)
          = withSetting s.alarms src x := by
        rw [show (t.answered 0x17 (byteKey b) none []).alarms.settings = _ from hset]
        rfl
      dsimp only
      rw [e]
      exact ⟨enter, stay⟩
    · have e : ({ s.listening with alarms := { s.alarms with
          settings := (t.answered 0x17 (byteKey b) none []).alarms.settings } } : State)
          = s.listening.setAlarms (withSetting s.alarms src x) := by
        rw [show (t.answered 0x17 (byteKey b) none []).alarms.settings = _ from hset]
        rfl
      rw [e]
      exact frame.answered ..

end Sys2Proof.Proofs.AlarmCommands
end

section
/-! The snapshot buffer (Chapter 10): taking, judging, configuring and reading out. -/

namespace Sys2Proof.Proofs.Snapshots

open Sys2Proof Sys2Proof.Machine Sys2Proof.Proofs.Basics Sys2Proof.Proofs.AlarmCommands

/-! ### The almost-full flag (R182) -/

/-- The flag is set and its level reached. -/
def AtLevel (b : SnapshotBuffer) : Prop := b.almostFull = true ∧ b.settings.almostFull ≤ cellsHeld b.store

theorem cellsHeld_append (l m : List Snapshot) : cellsHeld (l ++ m) = cellsHeld l + cellsHeld m := by
  simp [cellsHeld]

theorem storeSnapshot_fits {s : State} (h : s.snapshotFits = true) (k : TriggerKind) (tag : Option (BitVec 16)) :
    s.storeSnapshot k tag = s.setSnaps { s.snaps with
      store := s.snaps.store ++ [s.newSnapshot k tag]
      almostFull := decide (s.snaps.settings.almostFull ≤ cellsHeld (s.snaps.store ++ [s.newSnapshot k tag])) } := if_pos h

theorem storeSnapshot_atLevel {s : State} (h : AtLevel s.snaps) (k : TriggerKind) (tag : Option (BitVec 16)) :
    AtLevel (s.storeSnapshot k tag).snaps := by
  cases hf : s.snapshotFits with
  | true =>
    rw [storeSnapshot_fits hf]
    have : s.snaps.settings.almostFull ≤ cellsHeld (s.snaps.store ++ [s.newSnapshot k tag]) := by
      rw [cellsHeld_append]
      exact h.2.trans (Nat.le_add_right ..)
    exact ⟨decide_eq_true this, this⟩
  | false => rw [State.storeSnapshot, hf]; exact h

theorem raiseOnce_atLevel {s : State} (h : AtLevel s.snaps) (src : Source) (d : Detail) : AtLevel (s.raiseOnce src d).snaps := by
  unfold State.raiseOnce
  split
  · rw [selectAndJudge_snaps]; exact h
  · dsimp only
    rw [selectAndJudge_snaps]
    split
    · exact storeSnapshot_atLevel
        (s := s.setAlarms { s.alarms with pending := s.alarms.pending.set src (some { detail := d }) }) h ..
    · exact h

/-- With the flag set a raising leaves it set, whatever snapshot it takes. -/
theorem raise_atLevel {s : State} (h : AtLevel s.snaps) (src : Source) (d : Detail) : AtLevel (s.raise src d).snaps := by
  unfold State.raise
  dsimp only
  split
  · exact raiseOnce_atLevel (raiseOnce_atLevel h ..) ..
  · exact raiseOnce_atLevel h ..

/-- What a change of the flag from one value to another brings: SNAPSHOT ALMOST FULL raised, withdrawn, or nothing (R182). -/
def toldAlmostFull (u : State) (before : Bool) : State :=
  if u.snaps.almostFull && !before then u.raise srcAlmostFull u.bareDetail
  else if !u.snaps.almostFull && before then u.withdraw srcAlmostFull
  else u

theorem judgeAlmostFull_eq (s : State) :
    s.judgeAlmostFull = toldAlmostFull (s.setSnaps { s.snaps with almostFull := s.snaps.fullNow }) s.snaps.almostFull := rfl

theorem requestSnapshot_eq (s : State) (k : TriggerKind) (tag : Option (BitVec 16)) :
    s.requestSnapshot k tag = toldAlmostFull (s.storeSnapshot k tag) s.snaps.almostFull := by
  unfold State.requestSnapshot toldAlmostFull
  dsimp only
  rw [Bool.and_comm (!s.snaps.almostFull), Bool.and_comm s.snaps.almostFull]

theorem toldAlmostFull_alarmsOnly (u : State) (before : Bool) : AlarmsOnly u (toldAlmostFull u before) := by
  unfold toldAlmostFull
  split
  · exact raise_alarmsOnly ..
  · split
    · exact withdraw_alarmsOnly ..
    · exact .refl u

theorem toldAlmostFull_same {u : State} {before : Bool} (h : u.snaps.almostFull = before) : toldAlmostFull u before = u := by
  subst h
  unfold toldAlmostFull
  cases u.snaps.almostFull <;> rfl

theorem toldAlmostFull_rise {u : State} (h : u.snaps.almostFull = true) :
    toldAlmostFull u false = u.raise srcAlmostFull u.bareDetail := by
  simp [toldAlmostFull, h]

theorem toldAlmostFull_fall {u : State} (h : u.snaps.almostFull = false) :
    toldAlmostFull u true = u.withdraw srcAlmostFull := by
  simp [toldAlmostFull, h]

/-- The whole effect of a change of the flag, for a flag that is what its level makes it. -/
theorem toldAlmostFull_spec {u : State} {before : Bool} (hu : u.snaps.almostFull = u.snaps.fullNow) :
    (toldAlmostFull u before).snaps.almostFull = u.snaps.almostFull
      ∧ u.snaps.store <+: (toldAlmostFull u before).snaps.store
      ∧ (before = false → u.snaps.almostFull = true → (toldAlmostFull u before).alarmStands srcAlmostFull = true)
      ∧ (before = true → u.snaps.almostFull = false → (toldAlmostFull u before).alarms.isPending srcAlmostFull = false)
      ∧ (before = u.snaps.almostFull → toldAlmostFull u before = u)
      ∧ (before = true ∨ u.snaps.almostFull = false → (toldAlmostFull u before).snaps = u.snaps) := by
  cases hf : u.snaps.almostFull <;> cases before
  · rw [toldAlmostFull_same hf]
    simp [hf]
  · rw [toldAlmostFull_fall hf, withdraw_snaps]
    simp [hf, withdraw_notPending]
  · have lvl : AtLevel u.snaps := ⟨hf, of_decide_eq_true (hu.symm.trans hf)⟩
    rw [toldAlmostFull_rise hf]
    simp [(raise_atLevel lvl srcAlmostFull u.bareDetail).1, raise_prefix, raise_stands]
  · rw [toldAlmostFull_same hf]
    simp [hf]

theorem storeSnapshot_flag {s : State} (h : s.snapshotFits = true) (k : TriggerKind) (tag : Option (BitVec 16)) :
    (s.storeSnapshot k tag).snaps.almostFull = (s.storeSnapshot k tag).snaps.fullNow := by
  rw [storeSnapshot_fits h]
  rfl

theorem requestSnapshot_unfit {s : State} (h : s.snapshotFits = false) (k : TriggerKind) (tag : Option (BitVec 16)) :
    s.requestSnapshot k tag = s := by
  have e : s.storeSnapshot k tag = s := by simp [State.storeSnapshot, h]
  rw [requestSnapshot_eq, e, toldAlmostFull_same rfl]

theorem newSnapshot_size (s : State) (k : TriggerKind) (tag : Option (BitVec 16)) :
    (s.newSnapshot k tag).size = 1 + s.snaps.settings.chains.length := by
  simp [Snapshot.size, State.newSnapshot]

/-- The store with a new snapshot holds its cells more (R174, R176). -/
theorem cellsHeld_new (s : State) (k : TriggerKind) (tag : Option (BitVec 16)) :
    cellsHeld (s.snaps.store ++ [s.newSnapshot k tag]) = cellsHeld s.snaps.store + 1 + s.snaps.settings.chains.length := by
  rw [cellsHeld_append]
  have : cellsHeld [s.newSnapshot k tag] = (s.newSnapshot k tag).size := by simp [cellsHeld]
  rw [this, newSnapshot_size, Nat.add_assoc]

/-! ### SNAP and PERIODIC_SNAPSHOT (R176, R180, R181) -/

theorem onAir_iff (s : State) (n : ChainNo) : s.onAir n = true ↔ ∃ g i, s.groupOf n = some (g, i) ∧ (s.group g).holder = some n := by
  rw [← Settings.holderFor_iff, State.onAir, beq_iff_eq]

/-- Settles O55: a request stores the snapshot or does nothing, and tells the alarm unit of a change of the flag. -/
theorem snapshotIsTakenWholeOrNotAtAll : Obligations.SnapshotIsTakenWholeOrNotAtAll := by
  intro s
  refine ⟨fun kind tag => ⟨s.onAir, onAir_iff s, rfl⟩, fun hs hf => ?_, fun hs hf => ?_, fun hd hf => ?_, fun hd hf => ?_,
    fun hfull hb => ?_, fun hfull hb => ?_, fun h => ?_⟩
  · let t := s.listening.requestSnapshot .desk none
    have hf' : s.listening.snapshotFits = true := hf
    have store : (s.listening.storeSnapshot .desk none).snaps.store = s.snaps.store ++ [s.newSnapshot .desk none] := by
      rw [storeSnapshot_fits hf']; rfl
    have flag : (s.listening.storeSnapshot .desk none).snaps.almostFull
        = decide (s.snaps.settings.almostFull ≤ cellsHeld s.snaps.store + 1 + s.snaps.settings.chains.length) := by
      rw [storeSnapshot_fits hf', ← cellsHeld_new s .desk none]
      rfl
    have told : t = toldAlmostFull (s.listening.storeSnapshot .desk none) s.snaps.almostFull := requestSnapshot_eq ..
    obtain ⟨same, pre, rise, fall, quiet, -⟩ :=
      toldAlmostFull_spec (before := s.snaps.almostFull) (storeSnapshot_flag hf' .desk none)
    rw [← told] at same pre rise fall quiet
    have hexec : exec (.snap []) s = .next (t.answered 0x21 none none (wordBytes s.round.fieldCount)) := by
      refine congrArg Host.Outcome.next
        (deskCommand_one (t := t) hs _ _ _ none none _ ?_ (requestSnapshot_alarmsOnly ..).fieldCount)
      simp only [snap, hf', if_true, acceptWith]
      rfl
    refine ⟨_, hexec, store ▸ pre, (requestSnapshot_alarmsOnly ..).answered .., same.trans flag, fun h1 h2 => rise h1 (same ▸ h2),
      fun h1 h2 => fall h1 (same ▸ h2), fun h => ?_⟩
    have e : t = s.listening.storeSnapshot .desk none := quiet (h.trans same)
    refine ⟨(congrArg (·.snaps.store) e).trans store, (congrArg (·.alarms) e).trans ?_⟩
    rw [storeSnapshot_fits hf']
    rfl
  · have hf' : s.listening.snapshotFits = false := hf
    refine congrArg Host.Outcome.next (deskCommand_refused hs _ _ _ _ _ ?_)
    simp only [snap, hf', Bool.false_eq_true, if_false, requestSnapshot_unfit hf']
  · let u := s.setSnaps { s.snaps with dwellCount := 0 }
    have hf' : u.snapshotFits = true := hf
    obtain ⟨-, pre, -⟩ := toldAlmostFull_spec (before := s.snaps.almostFull) (storeSnapshot_flag hf' .periodic none)
    have store : (u.storeSnapshot .periodic none).snaps.store = s.snaps.store ++ [s.newSnapshot .periodic none] := by
      rw [storeSnapshot_fits hf']; rfl
    have frame := requestSnapshot_alarmsOnly u .periodic none
    refine ⟨u.requestSnapshot .periodic none, congrArg Host.Outcome.next (if_pos hd), frame.dwellCount, ?_, frame⟩
    rw [requestSnapshot_eq]
    exact store ▸ pre
  · let u := s.setSnaps { s.snaps with dwellCount := 0 }
    exact congrArg Host.Outcome.next ((if_pos hd).trans (requestSnapshot_unfit (s := u) hf .periodic none))
  · have hn : s.snaps.fullNow = true := decide_eq_true hfull
    obtain ⟨same, -, rise, -⟩ := toldAlmostFull_spec (before := s.snaps.almostFull)
      (u := s.setSnaps { s.snaps with almostFull := s.snaps.fullNow }) rfl
    rw [judgeAlmostFull_eq]
    exact ⟨same.trans hn, rise hb hn⟩
  · have hn : s.snaps.fullNow = false := decide_eq_false hfull
    obtain ⟨same, -, -, fall, -⟩ := toldAlmostFull_spec (before := s.snaps.almostFull)
      (u := s.setSnaps { s.snaps with almostFull := s.snaps.fullNow }) rfl
    rw [judgeAlmostFull_eq]
    exact ⟨same.trans hn, fall hb hn⟩
  · have hn : s.snaps.fullNow = s.snaps.almostFull := by
      rw [SnapshotBuffer.fullNow, Bool.eq_iff_iff, decide_eq_true_iff]
      exact h
    rw [judgeAlmostFull_eq, toldAlmostFull_same hn, hn]
    rfl

/-! ### SET SNAPSHOT (R177, R186) -/

/-- The buffer that SET SNAPSHOT leaves to be judged (R177, R186). -/
def configured (b : SnapshotBuffer) (t : TriggerSettings) : SnapshotBuffer :=
  { (if t.chainMask = b.settings.chainMask then b else b.cancel) with settings := t, dwellCount := 0 }

theorem configureSnapshots_eq (s : State) (t : TriggerSettings) :
    s.configureSnapshots t = (s.setSnaps (configured s.snaps t)).judgeAlmostFull := rfl

theorem configured_flag (b : SnapshotBuffer) (t : TriggerSettings) : (configured b t).almostFull = b.almostFull := by
  unfold configured
  dsimp only
  split <;> rfl

theorem configured_same {b : SnapshotBuffer} {t : TriggerSettings} (h : t.chainMask = b.settings.chainMask) :
    configured b t = { b with settings := t, dwellCount := 0 } := by simp [configured, h]

theorem configured_changed {b : SnapshotBuffer} {t : TriggerSettings} (h : t.chainMask ≠ b.settings.chainMask) :
    configured b t = { b.cancel with settings := t, dwellCount := 0 } := by simp [configured, h]

theorem configured_held (b : SnapshotBuffer) (t : TriggerSettings) :
    cellsHeld (configured b t).store = if t.chainMask = b.settings.chainMask then cellsHeld b.store else 0 := by
  split
  · next h => rw [configured_same h]
  · next h => rw [configured_changed h]; exact Steps.cancel_held b

/-- The alarm frame from a state with a buffer replaced is one from the state with the last buffer in place. -/
theorem AlarmsOnly_of_setSnaps {u t : State} {b : SnapshotBuffer} (h : AlarmsOnly (u.setSnaps b) t) :
    AlarmsOnly { u with snaps := t.snaps } t := by
  obtain ⟨_, _, _, _, _, _, rfl⟩ := h.elim
  rfl

/-- Settles O56: the buffer is configured, then judged. -/
theorem setSnapshotReplacesSettings : Obligations.SetSnapshotReplacesSettings := by
  intro s triggers d0 d1 level mask a0 a1 hs
  refine ⟨fun h => congrArg Host.Outcome.next (deskCommand_refused hs _ _ _ _ _ ?_), fun h => ?_⟩
  · simp only [setSnapshot]
    exact if_pos h
  · let x := triggersOf triggers (word d0 d1) level mask (word a0 a1)
    let b := configured s.snaps x
    let u := s.listening.setSnaps { b with almostFull := b.fullNow }
    let t := s.listening.configureSnapshots x
    have ht : t = toldAlmostFull u s.snaps.almostFull := by
      have : (s.listening.setSnaps b).snaps.almostFull = s.snaps.almostFull := configured_flag ..
      rw [← this]
      rfl
    have frame : AlarmsOnly u t := ht ▸ toldAlmostFull_alarmsOnly ..
    have hexec : exec (.setSnapshot [triggers, d0, d1, level, mask, a0, a1]) s = .next (t.answered 0x19 none none []) := by
      refine congrArg Host.Outcome.next (deskCommand_one (t := t) hs _ _ _ none none [] ?_ frame.fieldCount)
      simp only [setSnapshot, ge_iff_le, not_le.mpr h, if_false, accept]
      rfl
    obtain ⟨same, pre, rise, fall, quiet, keep⟩ := toldAlmostFull_spec (u := u) (before := s.snaps.almostFull) rfl
    rw [← ht] at same pre rise fall quiet keep
    have flag : t.snaps.almostFull = decide (x.almostFull
        ≤ if mask = s.snaps.settings.chainMask then cellsHeld s.snaps.store else 0) := by
      rw [same]
      show decide (b.settings.almostFull ≤ cellsHeld b.store) = _
      rw [configured_held]
      rfl
    refine ⟨_, hexec, frame.snapSettings, (AlarmsOnly_of_setSnaps frame).answered .., frame.dwellCount, fun hm => ?_, fun hm => ?_,
      flag, fun h1 h2 => rise h1 (same ▸ h2), fun h1 h2 => fall h1 (same ▸ h2), fun h => ?_, fun hm h => ?_⟩
    · have hb : b = { s.snaps.cancel with settings := x, dwellCount := 0 } := configured_changed hm
      have hlow : u.snaps.almostFull = false := by
        have : ¬ x.almostFull ≤ 0 := by
          show ¬ max 1 (min 512 _) ≤ 0
          omega
        rw [← same, flag, if_neg hm]
        exact decide_eq_false this
      have hread : t.snaps.readout = s.snaps.cancel.readout := by
        refine frame.readout.trans ?_
        show b.readout = _
        rw [hb]
      refine ⟨?_, fun hr => ?_, fun hr => ?_⟩
      · show t.snaps.store = []
        rw [keep (.inr hlow)]
        show b.store = []
        rw [hb]
        rfl
      · refine hread.trans ?_
        simp [SnapshotBuffer.cancel, hr]
      · refine hread.trans ?_
        simp [SnapshotBuffer.cancel, hr]
    · have hb : b = { s.snaps with settings := x, dwellCount := 0 } := configured_same hm
      have hstore : u.snaps.store = s.snaps.store := by
        show b.store = _
        rw [hb]
      have hread : b.readout = s.snaps.readout := by rw [hb]
      exact ⟨hstore ▸ pre, frame.readout.trans hread⟩
    · show t.alarms = s.alarms
      rw [quiet (h.trans same)]
      rfl
    · have hb : b = { s.snaps with settings := x, dwellCount := 0 } := configured_same hm
      show t.snaps.store = _
      rw [keep (h.imp_right fun h2 => same ▸ h2)]
      show b.store = _
      rw [hb]

/-! ### The readout (R183, R184, R186) -/

/-- What leaves the store as cells are sent: whole snapshots from its head (R184). -/
theorem advanceStore_spec : ∀ (l : List Snapshot) (owed sent : Nat), ∃ gone,
    (advanceStore l owed sent).1 = l.drop gone ∧ (advanceStore l owed sent).2.1 = owed - gone
      ∧ cellsHeld (l.take gone) + ((advanceStore l owed sent).2.2 - 1) = sent
      ∧ ∀ head, (l.drop gone).head? = some head → (advanceStore l owed sent).2.2 ≤ 1 + head.cells.length
  | [], owed, sent => ⟨0, by simp [advanceStore, cellsHeld]⟩
  | x :: rest, owed, sent => by
    by_cases h : x.size ≤ sent
    · obtain ⟨gone, h1, h2, h3, h4⟩ := advanceStore_spec rest (owed - 1) (sent - x.size)
      have e : advanceStore (x :: rest) owed sent = advanceStore rest (owed - 1) (sent - x.size) := if_pos h
      have held : cellsHeld (x :: rest.take gone) = x.size + cellsHeld (rest.take gone) := by simp [cellsHeld]
      refine ⟨gone + 1, ?_⟩
      rw [e, List.drop_succ_cons, List.take_succ_cons, held]
      exact ⟨h1, by rw [h2]; omega, by omega, h4⟩
    · have e : advanceStore (x :: rest) owed sent = (x :: rest, owed, sent + 1) := if_neg h
      refine ⟨0, ?_⟩
      rw [e]
      refine ⟨rfl, rfl, by simp [cellsHeld], fun head hh => ?_⟩
      obtain rfl : x = head := by simpa using hh
      have : x.size = 1 + x.cells.length := rfl
      dsimp only
      omega

theorem flagByte_three (a b c : Bool) : flagByte [a, b, c] = BitVec.ofNat 8 (a.toNat + 2 * b.toNat + 4 * c.toNat) := by
  cases a <;> cases b <;> cases c <;> decide

/-- Settles O57: the command starts the readout; each request builds by the state of the readout and the space. -/
theorem readoutStartsWhenIdle : Obligations.ReadoutStartsWhenIdle := by
  refine ⟨fun s b hs => ⟨fun h => ?_, fun h => ?_⟩, fun b space => ⟨fun h => ?_, fun h => ?_, fun h hs => ?_, fun h hs hc => ?_,
    fun h hc hk => ?_, fun h hs hc hk => ?_⟩, fun x => ?_, fun c => ?_, fun number cells last cancelled => ?_⟩
  · refine congrArg Host.Outcome.next (deskCommand_refused hs _ _ _ _ _ ?_)
    simp [readSnapshots, h]
  · refine congrArg Host.Outcome.next (deskCommand_one hs _ _ _ none none _ ?_ ?_)
    · simp [readSnapshots, h, acceptWith, SnapshotBuffer.cellsOwed, clampNat]
    · rfl
  · simp only [SnapshotBuffer.build, h]
  · unfold SnapshotBuffer.build
    split
    · rfl
    · exact if_neg (by omega)
    · exact if_pos h
  · simp only [SnapshotBuffer.build, h, hs, if_true]
    rfl
  · have hc' : b.cellsRemaining = [] := hc
    simp only [SnapshotBuffer.build, h, if_neg (not_lt.mpr hs), hc', List.isEmpty_nil, if_true]
    rfl
  · have hc' : b.cellsRemaining.isEmpty = false := List.isEmpty_eq_false_iff.mpr hc
    have hk' : min 4 (min b.cellsRemaining.length ((space - 6) / 5)) = 0 := hk
    simp [SnapshotBuffer.build, h, hc', hk']
  · have hc' : b.cellsRemaining.isEmpty = false := List.isEmpty_eq_false_iff.mpr hc
    have hk' : ¬ min 4 (min b.cellsRemaining.length ((space - 6) / 5)) = 0 := by
      have : 0 < min 4 (min b.cellsRemaining.length ((space - 6) / 5)) := hk
      omega
    obtain ⟨gone, h1, h2, h3, h4⟩ := advanceStore_spec b.store b.readout.owed
      (b.readout.nextCell - 1 + min 4 (min b.cellsRemaining.length ((space - 6) / 5)))
    refine ⟨b.buildCells (min 4 (min b.cellsRemaining.length ((space - 6) / 5))), gone, ?_, rfl, rfl, ?_, rfl, h1, h2, h3,
      fun head hh => h4 head (h1 ▸ hh)⟩
    · simp only [SnapshotBuffer.build, h, if_neg (not_lt.mpr hs), hc', Bool.false_eq_true, if_false, if_neg hk']
    · simp only [SnapshotBuffer.buildCells, decide_eq_true_eq]
      rfl
  · simp only [headerBytes, wordBytes_eq, byteOf, List.cons_append, List.nil_append]
    cases x.kind <;> rfl
  · simp only [positionBytes, wordBytes_eq, byteOf, flagByte_three, chainNumber, List.cons_append, List.nil_append]
  · cases last <;> cases cancelled <;> rfl

end Sys2Proof.Proofs.Snapshots
end

section
/-! What becomes of one LIVE cue while no swap is pending: only a task that acts on it changes its record, and a finished cue is
changed by none that an event brings (R70, R77, R100). -/

namespace Sys2Proof.Proofs.Fates

open Sys2Proof Sys2Proof.Machine Sys2Proof.Proofs.Tasks

/-- No swap is pending, and no id stands twice in the LIVE bank. -/
def Calm (s : State) : Prop := s.cues.swapPending = false ∧ (s.cues.live.map (fun c => c.fields.id)).Nodup

theorem Calm.of_bankSound {s : State} (hp : s.cues.swapPending = false) (hb : bankSound s.cues.live = true) : Calm s :=
  ⟨hp, of_decide_eq_true hb⟩

/-- The loaded lists, the swap flag and the placed list are the same. -/
structure SameLists (s t : State) : Prop where
  fields : t.cues.live.map Cue.fields = s.cues.live.map Cue.fields
  preset : t.cues.preset = s.cues.preset
  swap : t.cues.swapPending = s.cues.swapPending
  placed : t.round.placed = s.round.placed

theorem SameLists.refl (s : State) : SameLists s s := ⟨rfl, rfl, rfl, rfl⟩

theorem SameLists.trans {s t u : State} (h : SameLists s t) (k : SameLists t u) : SameLists s u :=
  ⟨k.fields.trans h.fields, k.preset.trans h.preset, k.swap.trans h.swap, k.placed.trans h.placed⟩

theorem ids_of_fields (l : List Cue) : l.map (fun c => c.fields.id) = (l.map Cue.fields).map CueFields.id := by simp

theorem SameLists.calm {s t : State} (h : SameLists s t) (hc : Calm s) : Calm t := by
  refine ⟨h.swap.trans hc.1, ?_⟩
  rw [ids_of_fields, h.fields, ← ids_of_fields]
  exact hc.2

theorem SameLists.of_cues {s t : State} (h : t.cues = s.cues) (hp : t.round.placed = s.round.placed) : SameLists s t :=
  ⟨by rw [h], by rw [h], by rw [h], hp⟩

theorem putRuntime_fields (l : List Cue) (id : CueId) (r : CueRuntime) : (putRuntime l id r).map Cue.fields = l.map Cue.fields := by
  simp only [putRuntime, List.map_map]
  refine List.map_congr_left fun c _ => ?_
  by_cases e : c.fields.id = id <;> simp [e]

/-! ### The cue of an id -/

theorem liveCue_congr {s t : State} (h : t.cues = s.cues) (i : CueId) : t.liveCue i = s.liveCue i := by
  simp only [State.liveCue, h]

theorem findCue_putRuntime_same {l : List Cue} {i : CueId} {c : Cue} (h : findCue l i = some c) (r : CueRuntime) :
    findCue (putRuntime l i r) i = some { c with runtime := r } := by
  induction l with
  | nil => cases h
  | cons x rest ih =>
    by_cases e : x.fields.id = i
    · obtain rfl : x = c := by simpa [findCue, e] using h
      simp [findCue, putRuntime, e]
    · have h' : findCue rest i = some c := by simpa [findCue, e] using h
      simpa [findCue, putRuntime, e] using ih h'

theorem findCue_putRuntime_other {i j : CueId} (hne : j ≠ i) (l : List Cue) (r : CueRuntime) :
    findCue (putRuntime l i r) j = findCue l j := by
  induction l with
  | nil => rfl
  | cons x rest ih =>
    by_cases e : x.fields.id = i
    · have : ¬ x.fields.id = j := fun h => hne (h.symm.trans e)
      simpa [findCue, putRuntime, e, this, hne.symm] using ih
    · by_cases f : x.fields.id = j
      · subst f
        simp [findCue, putRuntime, e]
      · simpa [findCue, putRuntime, e, f] using ih

theorem liveCue_setRuntime_same {s : State} {i : CueId} {c : Cue} (h : s.liveCue i = some c) (r : CueRuntime) :
    (s.setRuntime i r).liveCue i = some { c with runtime := r } := findCue_putRuntime_same h r

theorem liveCue_setRuntime_other {i j : CueId} (hne : j ≠ i) (s : State) (r : CueRuntime) :
    (s.setRuntime i r).liveCue j = s.liveCue j := findCue_putRuntime_other hne ..

theorem liveCue_of_mem {s : State} (h : (s.cues.live.map (fun c => c.fields.id)).Nodup) {c : Cue} (hc : c ∈ s.cues.live) :
    s.liveCue c.fields.id = some c := by
  unfold State.liveCue
  generalize s.cues.live = l at h hc
  induction l with
  | nil => cases hc
  | cons x rest ih =>
    simp only [List.map_cons, List.nodup_cons] at h
    rcases List.mem_cons.mp hc with rfl | hc
    · simp [findCue]
    · have : ¬ x.fields.id = c.fields.id := fun e => h.1 (e ▸ List.mem_map_of_mem (f := fun c : Cue => c.fields.id) hc)
      simpa [findCue, this] using ih h.2 hc

/-! ### One task -/

/-- A task of this form acts on a cue in this state: it names the cue and the state, or it computes eligibility of WAITING heads. -/
def Acts (c : Cue) (t : Task) : Prop :=
  match named t with
  | none => c.runtime.state = .waiting
  | some (id, states) => id = c.fields.id ∧ c.runtime.state ∈ states

/-- What one task does while no swap is pending. -/
structure Stays (s : State) (e : Effect) : Prop where
  swapped : e.swapped = false
  brought : ∀ t ∈ e.tasks, Brought t
  lists : SameLists s e.state

theorem Stays.quiet (s : State) : Stays s s.quiet := ⟨rfl, by simp [State.quiet], .refl s⟩

theorem stays_of_writes {s : State} {c : Cue} {e : Effect} (hp : s.cues.swapPending = false) (h : Writes s c e) : Stays s e := by
  rcases h with ⟨hs, ht, hb, hw⟩ | ⟨-, hs, -⟩
  · refine ⟨hs, ht, ?_⟩
    rcases hw with hw | ⟨r, -, hw⟩
    · exact .of_cues hw hb.placed
    · exact ⟨by rw [hw]; exact putRuntime_fields .., by rw [hw]; rfl, by rw [hw]; rfl, hb.placed⟩
  · rw [hp] at hs; cases hs

theorem runTask_stays {s : State} (hp : s.cues.swapPending = false) (t : Task) : Stays s (s.runTask t) := by
  rcases runTask_writes s t with e | ⟨c, -, hw⟩
  · rw [e]; exact .quiet s
  · exact stays_of_writes hp hw

theorem runTask_calm {s : State} (h : Calm s) (t : Task) : Calm (s.runTask t).state := (runTask_stays h.1 t).lists.calm h

theorem guard_calm : Guard Calm := ⟨fun s h => by rw [briefs_ids]; exact h.2, fun _ t h => runTask_calm h t⟩

/-- A task leaves a cue as it is, unless it acts on it; then it writes its runtime and keeps the take it was given. -/
theorem runTask_liveCue {s : State} (h : Calm s) {i : CueId} {c : Cue} (hc : s.liveCue i = some c) (t : Task) :
    (s.runTask t).state.liveCue i = some c
      ∨ (Acts c t ∧ ∃ r : CueRuntime, r.takeGiven = c.runtime.takeGiven
          ∧ (s.runTask t).state.liveCue i = some { c with runtime := r }) := by
  rcases runTask_writes s t with e | ⟨d, hd, ⟨-, -, -, hw⟩ | ⟨-, hp, -⟩⟩
  · rw [e]; exact .inl hc
  · rcases hw with hw | ⟨r, hr, hw⟩
    · exact .inl ((liveCue_congr hw i).trans hc)
    · rw [liveCue_congr hw i]
      by_cases e : i = d.fields.id
      · have live : s.liveCue d.fields.id = some d ∧ Acts d t := by
          cases hn : named t with
          | none =>
            simp only [ActsOn, Acts, hn] at hd ⊢
            exact ⟨liveCue_of_mem h.2 hd.1, hd.2⟩
          | some x =>
            simp only [ActsOn, Acts, hn] at hd ⊢
            have hid := (liveCue_mem hd.1).2
            exact ⟨hid ▸ hd.1, hid.symm, hd.2⟩
        obtain rfl : d = c := by
          rw [← e, hc] at live
          exact (Option.some.inj live.1).symm
        refine .inr ⟨live.2, r, hr, ?_⟩
        rw [e]
        exact liveCue_setRuntime_same live.1 r
      · rw [liveCue_setRuntime_other e]
        exact .inl hc
  · rw [h.1] at hp; cases hp

/-! ### All tasks of an event -/

/-- Carrying tasks out one after another while no swap is pending. -/
theorem carryOut_step {s : State} (h : Calm s) (t : Task) (rest : List Task) :
    s.carryOut (t :: rest) = (s.runTask t).state.carryOut ((s.runTask t).tasks ++ rest) := by
  rw [carryOut_cons guard_calm h, (runTask_stays h.1 t).swapped]
  rfl

theorem carryOut_single {s : State} (h : Calm s) (t : Task) :
    s.carryOut [t] = (s.runTask t).state.carryOut (s.runTask t).tasks := by
  rw [carryOut_step h, List.append_nil]

theorem carryOut_nil (s : State) : s.carryOut [] = s := rfl

/-- What every task does, in one relation between the states before and after, is done by all of them. -/
theorem carryOut_lists {s : State} (hp : s.cues.swapPending = false) (tasks : List Task) : SameLists s (s.carryOut tasks) :=
  carryOut_induct (fun u => SameLists s u)
    (fun _ t h => h.trans (runTask_stays (h.swap.trans hp) t).lists) s tasks (.refl s)

theorem carryOut_calm {s : State} (h : Calm s) (tasks : List Task) : Calm (s.carryOut tasks) := (carryOut_lists h.1 tasks).calm h

/-- Two lists of tasks are carried out one after the other. -/
theorem carryOut_append {s : State} (h : Calm s) (a b : List Task) : s.carryOut (a ++ b) = (s.carryOut a).carryOut b := by
  generalize hn : stepsLeft s a = n
  induction n using Nat.strongRecOn generalizing s a with
  | ind n ih =>
    cases a with
    | nil => rfl
    | cons t rest =>
      have less := runTask_stepsLeft (guard_calm.apart s h) t rest
      rw [(runTask_stays h.1 t).swapped, hn] at less
      rw [List.cons_append, carryOut_step h, carryOut_step h, ← List.append_assoc]
      exact ih _ less (runTask_calm h t) _ rfl

/-- A property of a cue's record that no task of a kind changes, the tasks brought being of that kind, holds to the end. -/
theorem carryOut_keeps {s : State} (h : Calm s) {i : CueId} {R : Cue → Prop} {T : Task → Prop} (brought : ∀ t, Brought t → T t)
    (step : ∀ u t c, Calm u → T t → u.liveCue i = some c → R c → ∃ d, (u.runTask t).state.liveCue i = some d ∧ R d)
    {tasks : List Task} (ht : ∀ t ∈ tasks, T t) {c : Cue} (hc : s.liveCue i = some c) (hR : R c) :
    ∃ d, (s.carryOut tasks).liveCue i = some d ∧ R d := by
  generalize hn : stepsLeft s tasks = n
  induction n using Nat.strongRecOn generalizing s tasks c with
  | ind n ih =>
    cases tasks with
    | nil => exact ⟨c, hc, hR⟩
    | cons t rest =>
      have less := runTask_stepsLeft (guard_calm.apart s h) t rest
      rw [(runTask_stays h.1 t).swapped, hn] at less
      obtain ⟨d, hd, hRd⟩ := step s t c h (ht t (by simp)) hc hR
      rw [carryOut_step h]
      refine ih _ less (runTask_calm h t) (fun u hu => ?_) hd hRd rfl
      rcases List.mem_append.mp hu with hu | hu
      · exact brought u ((runTask_stays h.1 t).brought u hu)
      · exact ht u (List.mem_cons_of_mem _ hu)

/-- A task that an event brings acts on no finished cue. -/
theorem not_acts_brought {c : Cue} (hf : c.runtime.state.finished = true) {t : Task} (h : Brought t) : ¬ Acts c t := by
  rcases h with ⟨n, rfl⟩ | ⟨id, rfl⟩
  · simp only [Acts, named]
    intro e
    rw [e] at hf; cases hf
  · simp only [Acts, named, List.mem_cons, List.not_mem_nil, or_false]
    rintro ⟨-, e | e | e⟩ <;> rw [e] at hf <;> cases hf

/-- Tasks that do not act on a finished cue leave it as it is (R72, R77). -/
theorem carryOut_spares {s : State} (h : Calm s) {i : CueId} {c : Cue} (hc : s.liveCue i = some c)
    (hf : c.runtime.state.finished = true) {tasks : List Task} (ht : ∀ t ∈ tasks, ¬ Acts c t) :
    (s.carryOut tasks).liveCue i = some c := by
  obtain ⟨d, hd, rfl⟩ := carryOut_keeps h (R := fun d => d = c) (T := fun t => ¬ Acts c t) (fun t => not_acts_brought hf)
    (fun u t d hu hn hd e => by
      subst e
      rcases runTask_liveCue hu hd t with k | ⟨k, -⟩
      · exact ⟨_, k, rfl⟩
      · exact absurd k hn) ht hc rfl
  exact hd

/-- The take given to a cue stays given, whatever is carried out. -/
theorem carryOut_takeGiven {s : State} (h : Calm s) {i : CueId} {c : Cue} (hc : s.liveCue i = some c) (tasks : List Task) :
    ∃ d, (s.carryOut tasks).liveCue i = some d ∧ d.runtime.takeGiven = c.runtime.takeGiven :=
  carryOut_keeps h (R := fun d => d.runtime.takeGiven = c.runtime.takeGiven) (T := fun _ => True) (fun _ _ => trivial)
    (fun u t d hu _ hd e => by
      rcases runTask_liveCue hu hd t with k | ⟨-, r, hr, k⟩
      · exact ⟨_, k, e⟩
      · exact ⟨_, k, hr.trans e⟩) (fun _ _ => trivial) hc rfl

/-- One task, and what it brings, on a cue that it leaves finished. -/
theorem carryOut_single_finished {s : State} (h : Calm s) {i : CueId} {d : Cue} {t : Task}
    (hd : (s.runTask t).state.liveCue i = some d) (hf : d.runtime.state.finished = true) :
    (s.carryOut [t]).liveCue i = some d := by
  rw [carryOut_single h]
  exact carryOut_spares (runTask_calm h t) hd hf fun u hu => not_acts_brought hf ((runTask_stays h.1 t).brought u hu)

/-- Tasks that name one cue each, each cue once: a finished cue is left as its own task leaves it. -/
theorem carryOut_own {s : State} (h : Calm s) {ids : List CueId} (hn : ids.Nodup) {task : CueId → Task} {states : List CueState}
    (htask : ∀ j, named (task j) = some (j, states)) {i : CueId} (hi : i ∈ ids) {c : Cue} (hc : s.liveCue i = some c)
    (hf : c.runtime.state.finished = true) {Q : Cue → Prop}
    (own : ∀ u, Calm u → CuesOnly s u → u.liveCue i = some c →
      ∃ d, (u.runTask (task i)).state.liveCue i = some d ∧ d.runtime.state.finished = true ∧ Q d) :
    ∃ d, (s.carryOut (ids.map task)).liveCue i = some d ∧ Q d := by
  obtain ⟨pre, post, rfl⟩ := List.append_of_mem hi
  have hpre : i ∉ pre := fun hm => (List.nodup_append.mp hn).2.2 _ hm _ (by simp) rfl
  have hpost : i ∉ post := (List.nodup_cons.mp (List.nodup_append.mp hn).2.1).1
  have others {l : List CueId} (hl : i ∉ l) {d : Cue} (hd : d.fields.id = i) : ∀ t ∈ l.map task, ¬ Acts d t := by
    intro t ht
    obtain ⟨j, hj, rfl⟩ := List.mem_map.mp ht
    simp only [Acts, htask]
    rintro ⟨e, -⟩
    exact hl (hd ▸ e ▸ hj)
  rw [List.map_append, List.map_cons, show task i :: post.map task = [task i] ++ post.map task from rfl, carryOut_append h,
    carryOut_append (carryOut_calm h _)]
  have before := carryOut_spares h hc hf (others hpre (liveCue_mem hc).2)
  obtain ⟨d, hd, hdf, hq⟩ := own _ (carryOut_calm h _) (carryOut_cuesOnly ..) before
  have after := carryOut_single_finished (carryOut_calm h _) hd hdf
  exact ⟨d, carryOut_spares (carryOut_calm (carryOut_calm h _) _) after hdf (others hpost (liveCue_mem hd).2), hq⟩

theorem liveIds_nodup {s : State} (h : Calm s) (p : Cue → Bool) : (s.liveIds p).Nodup :=
  h.2.sublist (List.filter_sublist.map _)

theorem mem_liveIds {s : State} {i : CueId} {c : Cue} (hc : s.liveCue i = some c) {p : Cue → Bool} (hp : p c = true) :
    i ∈ s.liveIds p := by
  obtain ⟨hm, rfl⟩ := liveCue_mem hc
  exact List.mem_map_of_mem (List.mem_filter.mpr ⟨hm, hp⟩)

/-! ### The acts that end a cue -/

/-- After a change of state no swap is taken when none is pending (R77). -/
theorem settleChange_calm {u : State} (hp : u.cues.swapPending = false) (c : Cue) (r : CueRuntime) :
    (u.settleChange c r).state.cues = u.cues := by
  have ended (b : Bool) : (if b then u.withdrawSet c.fields.id else u).cues = u.cues := by cases b <;> rfl
  unfold State.settleChange
  dsimp only
  rw [if_neg (by rw [ended]; simp [hp])]
  exact ended _

theorem failCue_cues {s : State} (hp : s.cues.swapPending = false) (c : Cue) (r : CueRuntime) (cause : FailureCause) :
    (s.failCue c r cause).state.cues
      = (s.setRuntime c.fields.id { r with state := .failed, cause := cause, effectField := none, expected := none }).cues :=
  (settleChange_calm (by simpa using hp) _ _).trans (by simp)

/-- An abandoned cue's runtime (R77). -/
def abandonedRuntime (r : CueRuntime) : CueRuntime := { r with state := .abandoned, effectField := none, expected := none }

theorem abandonCue_cues {s : State} (hp : s.cues.swapPending = false) (c : Cue) :
    (s.abandonCue c).state.cues = (s.setRuntime c.fields.id (abandonedRuntime c.runtime)).cues :=
  (settleChange_calm (by simpa using hp) _ _).trans (by simp [abandonedRuntime])

theorem confirmCue_cues {s : State} (hp : s.cues.swapPending = false) (c : Cue) :
    (s.confirmCue c).state.cues
      = (s.setRuntime c.fields.id { c.runtime with state := .done, effectField := none, expected := none }).cues :=
  (settleChange_calm (by simpa using hp) _ _).trans (by simp)

theorem failCue_liveCue {s : State} (hp : s.cues.swapPending = false) {c : Cue} (hc : s.liveCue c.fields.id = some c)
    (r : CueRuntime) (cause : FailureCause) : (s.failCue c r cause).state.liveCue c.fields.id
      = some { c with runtime := { r with state := .failed, cause := cause, effectField := none, expected := none } } := by
  rw [liveCue_congr (failCue_cues hp ..)]
  exact liveCue_setRuntime_same hc _

theorem abandonCue_liveCue {s : State} (hp : s.cues.swapPending = false) {c : Cue} (hc : s.liveCue c.fields.id = some c) :
    (s.abandonCue c).state.liveCue c.fields.id = some { c with runtime := abandonedRuntime c.runtime } := by
  rw [liveCue_congr (abandonCue_cues hp ..)]
  exact liveCue_setRuntime_same hc _

theorem confirmCue_liveCue {s : State} (hp : s.cues.swapPending = false) {c : Cue} (hc : s.liveCue c.fields.id = some c) :
    (s.confirmCue c).state.liveCue c.fields.id
      = some { c with runtime := { c.runtime with state := .done, effectField := none, expected := none } } := by
  rw [liveCue_congr (confirmCue_cues hp ..)]
  exact liveCue_setRuntime_same hc _

/-- A task that names a LIVE cue in a state in which it acts. -/
theorem onCue_acts {s : State} {i : CueId} {c : Cue} (hc : s.liveCue i = some c) {states : List CueState}
    (h : c.runtime.state ∈ states) (act : Cue → Effect) : s.onCue i states act = act c := by
  simp [State.onCue, hc, h]

/-- A cue's fate is read off its record. -/
theorem fateOf_eq {s : State} {i : CueId} {c : Cue} (h : s.liveCue i = some c) :
    s.fateOf i = some (c.runtime.state, c.runtime.cause) := by
  simp [State.fateOf, h]

theorem runTask_fail {s : State} {i : CueId} {c : Cue} (hc : s.liveCue i = some c) (hf : c.runtime.state = .fired)
    (cause : FailureCause) : s.runTask (.fail i cause) = s.failCue c c.runtime cause :=
  onCue_acts hc (by simp [hf]) _

/-- FIRED cues that an event fails, each once, fail with its cause (R101). -/
theorem carryOut_fails {s : State} (h : Calm s) {ids : List CueId} (hn : ids.Nodup) {i : CueId} (hi : i ∈ ids) {c : Cue}
    (hc : s.liveCue i = some c) (hf : c.runtime.state = .fired) (cause : FailureCause) :
    (s.carryOut (ids.map (fun j => Task.fail j cause))).fateOf i = some (.failed, cause) := by
  obtain ⟨d, hd, hq⟩ := carryOut_own h hn (task := fun j => Task.fail j cause) (fun _ => rfl) hi hc (by rw [hf]; rfl)
    (Q := fun d => d.runtime.state = .failed ∧ d.runtime.cause = cause) fun u hu _ hcu => by
      obtain ⟨-, rfl⟩ := liveCue_mem hcu
      rw [runTask_fail hcu hf]
      exact ⟨_, failCue_liveCue hu.1 hcu .., rfl, rfl, rfl⟩
  rw [fateOf_eq hd, hq.1, hq.2]

/-- The FIRED cues of a chain fail with the cause (R101). -/
theorem failFired_fate {s : State} (h : Calm s) {i : CueId} {c : Cue} (hc : s.liveCue i = some c)
    (hf : c.runtime.state = .fired) (cause : FailureCause) :
    (s.failFired c.fields.chain cause).fateOf i = some (.failed, cause) :=
  carryOut_fails h (liveIds_nodup h _) (mem_liveIds hc (by simp [hf])) hc hf cause

end Sys2Proof.Proofs.Fates
end

section
/-! The events that reach the whole LIVE bank: the swap, CLEAR, ALL STOP, SET REHEARSE (R69, R104, R105, R201). -/

namespace Sys2Proof.Proofs.WholeBank

open Sys2Proof Sys2Proof.Machine Sys2Proof.Proofs.Tasks Sys2Proof.Proofs.Fates Sys2Proof.Proofs.CueBanks

/-- With no LIVE cue there is no eligibility to compute (R73). -/
theorem eligibleAll_empty {s : State} (h : s.cues.live = []) : s.eligibleAll = [] := by
  simp [State.eligibleAll, h, headsInOrder]

theorem atEntry_fields (l : List Cue) : (l.map Cue.atEntry).map Cue.fields = l.map Cue.fields := by
  simp [Cue.atEntry]

/-- Settles O32: after the exchange no swap is pending, so the eligibility tasks keep both lists and the placed list. -/
theorem takenSwapExchangesTheBanks : Obligations.TakenSwapExchangesTheBanks := by
  intro s hready exchanged
  have lists := carryOut_lists (s := exchanged) rfl exchanged.eligibleAll
  refine ⟨exchanged.carryOut exchanged.eligibleAll, ?runs, rfl, fun h => ?empty, lists.preset, lists.fields, lists.swap,
    lists.placed, (takeSwap_cuesOnly s).trans (carryOut_cuesOnly ..)⟩
  case runs =>
    change Host.Outcome.next (if s.swapReady then s.takeSwap.carryOut s.takeSwap.eligibleAll else s) = _
    rw [if_pos hready]
    rfl
  case empty => rw [eligibleAll_empty h, carryOut_nil]

/-! ### CLEAR -/

/-- The state that CLEAR leaves before eligibility, with its reply (R201). -/
def clearedState (s : State) : State := s.listening.clearBlocks.queueReplies [{ selector := selClear, field := s.fieldCount }]

theorem clearedState_chain (s : State) (n : ChainNo) :
    (clearedState s).chain n = { config := (s.chain n).config, reported := (s.chain n).reported } := by
  simp [clearedState, State.clearBlocks, State.chain, mapTable, ChainRecord.cleared, State.listening, State.setAssembler]

theorem clearedState_group (s : State) (g : GroupId) : (clearedState s).group g = { map := (s.group g).map } := by
  cases g <;> rfl

/-- The buffer after CLEAR, by the state of its readout (R187). -/
theorem snapsCleared_eq (b : SnapshotBuffer) : b.cleared = { b with
    store := [], dwellCount := 0, almostFull := false
    readout := match b.readout.state with
      | .idle => {}
      | .sending => { state := .cancelling, owed := 0, nextCell := 1, number := b.readout.number }
      | .cancelling => b.readout } := by
  cases h : b.readout.state <;> simp [SnapshotBuffer.cleared, SnapshotBuffer.cancel, h]

theorem exec_clear_ready {s : State} (h : s.deskReady = true) :
    exec (.clear []) s = .next ((clearedState s).carryOut (clearedState s).eligibleAll) := by
  rw [exec_clear, deskCommand_silent h _ _ clear rfl]
  rfl

/-- Settles O60: CLEAR leaves the cleared blocks with its reply; eligibility then writes only what the cue engine owns. -/
theorem clearKeepsConfiguration : Obligations.ClearKeepsConfiguration := by
  intro s hready u t
  have same : u = clearedState s := by
    dsimp only [u, clearedState, State.queueReplies, State.clearBlocks, listening_snaps]
    rw [snapsCleared_eq]
    rfl
  have frame : CuesOnly (clearedState s) t := same ▸ carryOut_cuesOnly u u.eligibleAll
  have lists : SameLists (clearedState s) t := same ▸ carryOut_lists (s := u) rfl u.eligibleAll
  refine ⟨?runs, fun h => ?empty, frame.replies, lists.placed, ?_, ?_, frame.allStop, frame.fieldCount, ?_, ?_, lists.preset,
    frame.rehearse, frame.limit, ?fields, fun n => ?chain, fun g => ?group, ?_, ?_, ?_, ?_, ?_, ?_, frame.snapSettings, ?_,
    frame.port, ?_⟩
  case runs => rw [exec_clear_ready hready, ← same]
  case empty =>
    change u.carryOut u.eligibleAll = u
    rw [eligibleAll_empty (by simp [u, h]), carryOut_nil]
  case fields => exact lists.fields.trans (atEntry_fields _)
  case chain => rw [frame.tracked, clearedState_chain]; rfl
  case group =>
    have kept := frame.shown g
    have map : (t.group g).map = ((clearedState s).group g).map := by rw [frame.2]; cases g <;> rfl
    have selected : (t.group g).selected = ((clearedState s).group g).selected := by rw [frame.2]; cases g <;> rfl
    rw [frame.holder, map, selected, clearedState_group]
    exact ⟨rfl, rfl, rfl⟩
  all_goals rw [frame.2]; rfl

/-! ### What one task keeps of the rest of the block -/

theorem ActsOn.live {s : State} {t : Task} {c : Cue} (h : ActsOn s t c) : c ∈ s.cues.live := by
  cases hn : named t with
  | none =>
    simp only [ActsOn, hn] at h
    exact h.1
  | some x =>
    simp only [ActsOn, hn] at h
    exact (liveCue_mem h.1).1

/-- What acting on a cue leaves beside the cues is left by every task, the cue acted on being one of the LIVE list. -/
theorem runTask_beside {s : State} (hp : s.cues.swapPending = false) (t : Task) :
    (s.runTask t).state = s ∨ ∃ c ∈ s.cues.live, Beside c.fields s (s.runTask t).state := by
  rcases runTask_writes s t with e | ⟨c, hc, ⟨-, -, hb, -⟩ | ⟨-, hs, -⟩⟩
  · rw [e]; exact .inl rfl
  · exact .inr ⟨c, ActsOn.live hc, hb⟩
  · rw [hp] at hs; cases hs

/-- Under rehearse no set is queued: the waiting sets stay or are withdrawn (R103). -/
theorem carryOut_sets_rehearse {s : State} (hp : s.cues.swapPending = false) (hr : s.cues.rehearse = true) (tasks : List Task) :
    (s.carryOut tasks).round.sets.Sublist s.round.sets := by
  refine (carryOut_induct (fun u => SameLists s u ∧ u.cues.rehearse = true ∧ u.round.sets.Sublist s.round.sets)
    (fun u t hu => ?_) s tasks ⟨.refl s, hr, .refl _⟩).2.2
  obtain ⟨hl, hru, hs⟩ := hu
  have hpu := hl.swap.trans hp
  refine ⟨hl.trans (runTask_stays hpu t).lists, ?_⟩
  rcases runTask_beside hpu t with e | ⟨c, -, hb⟩
  · rw [e]; exact ⟨hru, hs⟩
  · exact ⟨hb.rehearse.trans hru, (hb.sets hru).trans hs⟩

/-- The commanded part of a chain with no LIVE cue of its own, its dowser apart, is left as it is (R93, R96, R98, R99, R130). -/
theorem carryOut_commanded {s : State} (hp : s.cues.swapPending = false) {n : ChainNo}
    (hn : ∀ c ∈ s.cues.live, c.fields.chain ≠ n) (tasks : List Task) :
    let x := ((s.carryOut tasks).chain n).commanded
    x.motion = (s.chain n).commanded.motion ∧ x.lamp = (s.chain n).commanded.lamp
      ∧ x.parkTarget = (s.chain n).commanded.parkTarget := by
  refine (carryOut_induct (fun u => SameLists s u ∧ (u.chain n).commanded.motion = (s.chain n).commanded.motion
      ∧ (u.chain n).commanded.lamp = (s.chain n).commanded.lamp
      ∧ (u.chain n).commanded.parkTarget = (s.chain n).commanded.parkTarget)
    (fun u t hu => ?_) s tasks ⟨.refl s, rfl, rfl, rfl⟩).2
  obtain ⟨hl, hm, hla, hk⟩ := hu
  have hpu := hl.swap.trans hp
  refine ⟨hl.trans (runTask_stays hpu t).lists, ?_⟩
  rcases runTask_beside hpu t with e | ⟨c, hc, hb⟩
  · rw [e]; exact ⟨hm, hla, hk⟩
  · have hf : c.fields ∈ s.cues.live.map Cue.fields := hl.fields ▸ List.mem_map_of_mem hc
    obtain ⟨d, hd, e⟩ := List.mem_map.mp hf
    obtain ⟨a, b, k⟩ := hb.commanded n fun h => hn d hd (by rw [e, h])
    exact ⟨a.trans hm, b.trans hla, k.trans hk⟩

/-! ### SET REHEARSE -/

/-- The state on which SET REHEARSE fails the FIRED cues of the sets it withdraws (R104). -/
def rehearsing (s : State) : State := ({ s with cues := { s.cues with rehearse := true } } : State).withdrawAllSets

/-- Settles O48: under rehearse no task queues a set, and each FIRED cue of a withdrawn set has its own failure among the tasks. -/
theorem rehearseWithdrawsWaitingSets : Obligations.RehearseWithdrawsWaitingSets := by
  intro s hs hoff hp hb
  let cut := s.listening.liveIds (fun c => c.runtime.state == .fired && s.listening.setWaits c.fields.id)
  let u := (rehearsing s.listening).carryOut (cut.map (fun id => .fail id .undelivered))
  have runs : Machine.setRehearse [1] s.listening = some (u, accept none) := by
    simp [Machine.setRehearse, yesNo, State.setRehearse, hoff]
    rfl
  have frame : CuesOnly (rehearsing s.listening) u := carryOut_cuesOnly ..
  have calm : Calm (rehearsing s.listening) := .of_bankSound hp hb
  refine ⟨u.answered 0x1A none none [],
    congrArg Host.Outcome.next (deskCommand_one hs _ _ _ none none [] runs frame.fieldCount), ?sets, ?frame, ?fates⟩
  case sets => exact List.sublist_nil.mp (carryOut_sets_rehearse (s := rehearsing s.listening) hp rfl _)
  case frame =>
    have writes : CuesOnly { s.listening with cues := { s.cues with rehearse := true } } (rehearsing s.listening) :=
      ⟨fun _ => rfl, rfl⟩
    exact (writes.trans frame).answered ..
  case fates =>
    intro id c hc hf hw
    have hi : id ∈ cut := mem_liveIds (s := s.listening) hc (by
      obtain ⟨-, rfl⟩ := liveCue_mem hc
      have hw' : s.listening.setWaits c.fields.id = true := hw
      simp [hf, hw'])
    exact carryOut_fails calm (liveIds_nodup (s := s.listening) ⟨hp, calm.2⟩ _) hi hc hf _

/-! ### ALL STOP -/

/-- No task acts on a cue that is DONE, FAILED or ABANDONED (R72, R100). -/
theorem not_acts_ended {c : Cue} (h : c.runtime.state = .done ∨ c.runtime.state = .failed ∨ c.runtime.state = .abandoned)
    (t : Task) : ¬ Acts c t := by
  unfold Acts
  rcases h with h | h | h <;> rw [h] <;> cases t <;> simp [named]

/-- A cue that is DONE, FAILED or ABANDONED is left as it is, whatever is carried out. -/
theorem carryOut_ended {s : State} (h : Calm s) {i : CueId} {c : Cue} (hc : s.liveCue i = some c)
    (he : c.runtime.state = .done ∨ c.runtime.state = .failed ∨ c.runtime.state = .abandoned) (tasks : List Task) :
    (s.carryOut tasks).liveCue i = some c :=
  carryOut_spares h hc (by rcases he with e | e | e <;> rw [e] <;> rfl) fun t _ => not_acts_ended he t

/-- A task that abandons the cue it names, in the states in which it acts (R77, R105, R106). -/
def Abandons (i : CueId) (t : Task) : Prop := t = .abandonFollower i ∨ t = .abandonStopped i ∨ t = .abandonNamed i

theorem runTask_abandons {s : State} (hp : s.cues.swapPending = false) {i : CueId} {c : Cue} (hc : s.liveCue i = some c)
    {t : Task} (ht : Abandons i t) (ha : Acts c t) :
    (s.runTask t).state.liveCue i = some { c with runtime := abandonedRuntime c.runtime } := by
  obtain ⟨-, rfl⟩ := liveCue_mem hc
  have ends := abandonCue_liveCue hp hc
  rcases ht with rfl | rfl | rfl
  all_goals
    obtain ⟨-, hst⟩ := ha
    simpa only [State.runTask, onCue_acts hc hst] using ends

/-- A cue whose own abandonment is among the tasks ends ABANDONED, when until then it is abandoned or keeps what makes that
abandonment act on it. -/
theorem carryOut_abandons {s : State} (h : Calm s) {i : CueId} {own : Task} (hown : Abandons i own) {R : Cue → Prop}
    (acts : ∀ c, R c → Acts c own) {T : Task → Prop} (brought : ∀ t, Brought t → T t)
    (step : ∀ u t c, Calm u → T t → u.liveCue i = some c → R c → ∃ d, (u.runTask t).state.liveCue i = some d
      ∧ (R d ∨ d.runtime.state = .abandoned))
    {tasks : List Task} (hmem : own ∈ tasks) (ht : ∀ t ∈ tasks, T t) {c : Cue} (hc : s.liveCue i = some c) (hR : R c) :
    ∃ d, (s.carryOut tasks).liveCue i = some d ∧ d.runtime.state = .abandoned := by
  obtain ⟨pre, post, rfl⟩ := List.append_of_mem hmem
  rw [show pre ++ own :: post = pre ++ ([own] ++ post) from rfl, carryOut_append h, carryOut_append (carryOut_calm h _)]
  obtain ⟨d, hd, hRd⟩ := carryOut_keeps h (R := fun d => R d ∨ d.runtime.state = .abandoned) (T := T) brought
    (fun u t d hu htt hdu hRd => by
      rcases hRd with hRd | hRd
      · exact step u t d hu htt hdu hRd
      · rcases runTask_liveCue hu hdu t with k | ⟨k, -⟩
        · exact ⟨d, k, .inr hRd⟩
        · exact absurd k (not_acts_ended (.inr (.inr hRd)) t))
    (tasks := pre) (fun t hm => ht t (List.mem_append_left _ hm)) hc (.inl hR)
  have calm := carryOut_calm h pre
  obtain ⟨e, he, hae⟩ : ∃ e, ((s.carryOut pre).carryOut [own]).liveCue i = some e ∧ e.runtime.state = .abandoned := by
    rcases hRd with hRd | hRd
    · exact ⟨_, carryOut_single_finished calm (runTask_abandons calm.1 hd hown (acts d hRd)) rfl, rfl⟩
    · exact ⟨d, carryOut_ended calm hd (.inr (.inr hRd)) _, hRd⟩
  exact ⟨e, carryOut_ended (carryOut_calm calm _) he (.inr (.inr hae)) _, hae⟩

/-- A task that can do no more to a cue that has armed than abandon it: one that a change of state brings, an abandonment of the cue,
or one that acts on other cues. -/
def Spares (i : CueId) (t : Task) : Prop := Brought t ∨ Abandons i t ∨ ∀ d : Cue, d.fields.id = i → ¬ Acts d t

/-- Such a task leaves a cue that is not WAITING as it is, or abandons it. -/
theorem runTask_spares {s : State} (h : Calm s) {i : CueId} {c : Cue} (hc : s.liveCue i = some c)
    (hw : c.runtime.state ≠ .waiting) {t : Task} (ht : Spares i t) :
    (s.runTask t).state.liveCue i = some c ∨ ∃ d, (s.runTask t).state.liveCue i = some d ∧ d.runtime.state = .abandoned := by
  rcases runTask_liveCue h hc t with k | ⟨k, -⟩
  · exact .inl k
  · have hid := (liveCue_mem hc).2
    have hab : Abandons i t := by
      rcases ht with (⟨n, rfl⟩ | ⟨id, rfl⟩) | ha | hn
      · exact absurd k hw
      · rw [k.1, hid]; exact .inl rfl
      · exact ha
      · exact absurd k (hn c hid)
    exact .inr ⟨_, runTask_abandons h.1 hc hab k, rfl⟩

/-- All such tasks of an event leave a cue that is not WAITING as it is, or ABANDONED. -/
theorem carryOut_sparing {s : State} (h : Calm s) {i : CueId} {c : Cue} (hc : s.liveCue i = some c)
    (hw : c.runtime.state ≠ .waiting) {tasks : List Task} (ht : ∀ t ∈ tasks, Spares i t) :
    ∃ d, (s.carryOut tasks).liveCue i = some d ∧ (d = c ∨ d.runtime.state = .abandoned) := by
  refine carryOut_keeps h (R := fun d => d = c ∨ d.runtime.state = .abandoned) (T := Spares i) (fun t => .inl)
    (fun u t d hu htt hd hR => ?_) ht hc (.inl rfl)
  have hwd : d.runtime.state ≠ .waiting := by
    rcases hR with rfl | e
    · exact hw
    · rw [e]; nofun
  rcases runTask_spares hu hd hwd htt with k | ⟨x, k, hx⟩
  · exact ⟨d, k, hR⟩
  · exact ⟨x, k, .inr hx⟩

theorem commandAllStop_chain (s : State) (n : ChainNo) :
    s.commandAllStop.chain n = { s.chain n with commanded := { (s.chain n).commanded with motion := .stop } } := by
  simp [State.commandAllStop, State.chain, mapTable]

theorem commandAllStop_cuesOnly (s : State) : CuesOnly s s.commandAllStop :=
  ⟨fun n => by rw [commandAllStop_chain]; rfl, rfl⟩

/-- The state on which ALL STOP abandons the cues (R105). -/
def stopping (s : State) : State :=
  ({ s with round := { s.round with allStop := true } } : State).commandAllStop.withdrawAllSets

/-- Settles O36: each cue that was ARMED, WITHHELD or FIRED has its own abandonment among the tasks, and no task commands a chain
without a LIVE cue but for its dowser. -/
theorem allStopAbandonsAndStops : Obligations.AllStopAbandonsAndStops := by
  intro s hs hp hb
  let stopped (c : Cue) : Bool := c.runtime.state == .armed || c.runtime.state == .withheld || c.runtime.state == .fired
  let v := stopping s.listening
  let t := s.listening.allStop
  have calm : Calm v := .of_bankSound hp hb
  have frame : CuesOnly { s.listening with round := { s.round with allStop := true } } t :=
    ((commandAllStop_cuesOnly _).trans ⟨fun _ => rfl, rfl⟩).trans (carryOut_cuesOnly ..)
  refine ⟨t.answered 0x08 none none [], congrArg Host.Outcome.next (deskCommand_one hs _ _ _ none none [] rfl frame.fieldCount),
    frame.answered .., fun id c hc hst => ?ends, fun n hn => ?chain⟩
  case ends =>
    have hR : stopped c = true := by rcases hst with h | h | h <;> simp [stopped, h]
    have hid := (liveCue_mem hc).2
    obtain ⟨d, hd, ha⟩ := carryOut_abandons calm (own := .abandonStopped id) (.inr (.inl rfl)) (R := fun d => d = c)
      (fun d e => by
        subst e
        exact ⟨hid.symm, by simpa [stopped, or_assoc] using hR⟩)
      (T := Spares id) (fun t => .inl)
      (fun u t d hu ht hd e => by
        subst e
        rcases runTask_spares hu hd (by rintro e; simp [e] at hst) ht with k | ⟨x, k, hx⟩
        · exact ⟨d, k, .inl rfl⟩
        · exact ⟨x, k, .inr hx⟩)
      (tasks := (v.liveIds stopped).map .abandonStopped) (List.mem_map_of_mem (mem_liveIds (s := v) hc hR))
      (fun t ht => by
        obtain ⟨j, -, rfl⟩ := List.mem_map.mp ht
        by_cases e : j = id
        · exact .inr (.inl (.inr (.inl (e ▸ rfl))))
        · exact .inr (.inr fun d hd k => e (k.1.trans hd))) hc rfl
    change (t.liveCue id).map (fun d => d.runtime.state) = some .abandoned
    rw [show t.liveCue id = some d from hd, Option.map_some, ha]
  case chain =>
    have kept := carryOut_commanded (s := v) hp (n := n) hn ((v.liveIds stopped).map .abandonStopped)
    have before : (v.chain n).commanded = { (s.chain n).commanded with motion := .stop } :=
      congrArg ChainRecord.commanded (commandAllStop_chain { s.listening with round := { s.round with allStop := true } } n)
    obtain ⟨hm, hl, hk⟩ := kept
    rw [before] at hm hl hk
    exact ⟨hm, hl, hk⟩

end Sys2Proof.Proofs.WholeBank
end

section
/-! The firing decision: its checks, and what each of its outcomes writes (R83 to R88, R103). -/

namespace Sys2Proof.Proofs.Decisions

open Sys2Proof Sys2Proof.Machine Sys2Proof.Proofs.Tasks Sys2Proof.Proofs.Handling Sys2Proof.Proofs.Fates
  Sys2Proof.Proofs.Settings Sys2Proof.Proofs.Snapshots

/-! ### The verdict -/

/-- The checks in their order (R83, R103). -/
theorem verdict_eq (s : State) (c : Cue) : s.verdict c =
    if c.fields.release = .gated ∧ c.runtime.takeGiven = false then .withheld .noTake
    else if s.cues.rehearse = false ∧ s.alreadyDone c.fields = true then .completes
    else if s.cues.rehearse = false ∧ s.builtIn c.fields = false then .withheld .condition
    else if s.hold.accepted = some .closed then .withheld .hold
    else if s.permitted c then .passes else .withheld .permit := by
  unfold State.verdict State.holdActive LineFilter.isClosed
  cases s.permitted c <;> simp

theorem atRest_iff (r : ChainRecord) : r.state.atRest = true ↔ r.stopped := by
  unfold ChainRecord.stopped
  cases r.state <;> simp [ChainState.atRest]

theorem alreadyDone_iff (s : State) (f : CueFields) : s.alreadyDone f = true ↔
    (f.kind = .start ∧ ((s.chain f.chain).state = .runUp ∨ (s.chain f.chain).state = .atSpeed))
      ∨ (f.kind = .stop ∧ (s.chain f.chain).stopped)
      ∨ (f.kind = .changeover ∧ ∃ g i, s.groupOf f.chain = some (g, i) ∧ (s.group g).holder = some f.chain) := by
  unfold State.alreadyDone
  cases f.kind <;> simp [atRest_iff, onAir_iff]

theorem builtIn_iff (s : State) (f : CueFields) : s.builtIn f = true ↔
    ((f.kind = .park ∨ f.kind = .start) ∧ (s.chain f.chain).stopped) ∨ (f.kind = .stop ∧ ¬ (s.chain f.chain).stopped)
      ∨ (f.kind = .shutter ∧ (s.chain f.chain).state ≠ .absent) ∨ f.kind = .mark
      ∨ (f.kind = .changeover ∧ s.readyFor f.chain ∧ (s.chain f.chain).state ≠ .faulted
        ∧ ∃ g i, s.groupOf f.chain = some (g, i) ∧ (s.group g).inFlight = none) := by
  unfold State.builtIn
  cases f.kind
  case stop => simp [← atRest_iff]
  case changeover =>
    rcases s.groupOf f.chain with _ | ⟨g, i⟩
    · simp
    · simp [incomingReady_iff, and_assoc]
  all_goals simp [atRest_iff]

/-! ### A change of state, when no swap is taken -/

theorem settleChange_round (u : State) (c : Cue) (r : CueRuntime) : ∃ x y, (u.settleChange c r).state =
    { u with round := { u.round with sets := x, placed := y }, cues := (u.settleChange c r).state.cues } := by
  unfold State.settleChange
  dsimp only
  split <;> split <;> exact ⟨_, _, rfl⟩

/-- A cue that stays unfinished or FIRED, having been neither WITHHELD nor FIRED, changes nothing more (R77). -/
theorem settleChange_goesOn {u : State} {c : Cue} {r : CueRuntime} (hc : c.holdsSwap = false)
    (hr : r.state ≠ .done ∧ r.state ≠ .failed ∧ r.state ≠ .abandoned) : (u.settleChange c r).state = u := by
  obtain ⟨h1, h2, h3⟩ := hr
  simp [State.settleChange, hc, h1, h2, h3]

/-- A cue that is DONE has its waiting set withdrawn (R77). -/
theorem settleChange_done {u : State} (hp : u.cues.swapPending = false) (c : Cue) {r : CueRuntime} (hr : r.state = .done) :
    (u.settleChange c r).state = u.withdrawSet c.fields.id := by
  simp [State.settleChange, hr, hp]

/-! ### The snapshot and CUE LATE of a decision -/

/-- What a snapshot would hold is not read from what the cue engine writes. -/
theorem newSnapshot_cuesOnly {s t : State} (h : CuesOnly s t) (k : TriggerKind) (tag : Option (BitVec 16)) :
    t.newSnapshot k tag = s.newSnapshot k tag := by
  have cell (n : ChainNo) : t.positionCell n = s.positionCell n := by
    have hg : t.onAir n = s.onAir n := by
      rw [Bool.eq_iff_iff, onAir_iff, onAir_iff]
      have : t.groupOf n = s.groupOf n := by rw [h.2]; rfl
      simp only [this, h.holder]
    have coasted := congrArg (fun r : ChainRecord => r.coasted) (h.tracked n)
    have stale := congrArg (fun r : ChainRecord => r.stale) (h.tracked n)
    dsimp only [ChainRecord.tracked] at coasted stale
    simp only [State.positionCell, hg, h.state, h.reported, coasted, stale]
  unfold State.newSnapshot
  simp [h.fieldCount, h.snapSettings, cell]

/-- A snapshot that fits is stored, whatever its request brings more (R176). -/
theorem requestSnapshot_stores {s : State} (h : s.snapshotFits = true) (k : TriggerKind) (tag : Option (BitVec 16)) :
    s.snaps.store ++ [s.newSnapshot k tag] <+: (s.requestSnapshot k tag).snaps.store := by
  have := requestSnapshot_prefix s k tag
  rw [storeSnapshot_fits h] at this
  exact this

theorem raiseLate_stands {s : State} {c : Cue} (h : s.lateMasked c.fields.chain = false) :
    (s.raiseLate c).alarmStands srcCueLate = true := by
  rw [State.raiseLate, h]
  exact raise_stands ..

/-- CUE LATE raised for a late cue stands to the end of its decision (R52, R117). -/
theorem lateAndSnapshot_stands {s : State} {c : Cue} {r : CueRuntime} (hr : r.late = true)
    (hm : s.lateMasked c.fields.chain = false) : (s.lateAndSnapshot c r).alarmStands srcCueLate = true := by
  unfold State.lateAndSnapshot
  dsimp only
  rw [if_pos hr]
  exact (snapshotIf_handled _ _ _ _).stands (by simp) (by decide) (raiseLate_stands hm)

/-- A cue in time takes its snapshot, when it asks for one and the trigger is enabled, and does nothing more (R178). -/
theorem lateAndSnapshot_inTime {s : State} {c : Cue} {r : CueRuntime} (hr : r.late = false) : s.lateAndSnapshot c r =
    if c.fields.snapshot && s.snaps.settings.cue then s.requestSnapshot .cue (some c.fields.id) else s := by
  simp [State.lateAndSnapshot, hr]

theorem lateIf_alarmsOnly (s : State) (b : Bool) (c : Cue) : AlarmsOnly s (if b then s.raiseLate c else s) := by
  split
  · unfold State.raiseLate
    split
    · exact .refl s
    · exact raise_alarmsOnly ..
  · exact .refl s

theorem snapshotIf_alarmsOnly (s : State) (b : Bool) (k : TriggerKind) (tag : Option (BitVec 16)) :
    AlarmsOnly s (if b then s.requestSnapshot k tag else s) := by
  split
  · exact requestSnapshot_alarmsOnly ..
  · exact .refl s

theorem lateAndSnapshot_alarmsOnly (s : State) (c : Cue) (r : CueRuntime) : AlarmsOnly s (s.lateAndSnapshot c r) :=
  (lateIf_alarmsOnly s r.late c).trans (snapshotIf_alarmsOnly ..)

/-- The fields by which a decision comes after its due field, as the decision records them (R52). -/
theorem shortfallAt_eq (g : Field) (due : Option Field) : shortfallAt g due = match due with
    | none => 0
    | some d => min 255 (fieldDiff g d).toNat := by
  cases due <;> rfl

/-! ### A cue done at its decision (R85, R99, R103) -/

/-- The runtime of a cue done at once. -/
def doneRuntime (s : State) (c : Cue) (rehearsed : Bool) : CueRuntime :=
  { c.runtime.firedAt s.fieldCount with state := .done, rehearsed := c.runtime.rehearsed || rehearsed }

theorem doneAtOnce_state {s : State} (hp : s.cues.swapPending = false) (c : Cue) (b : Bool) : (s.doneAtOnce c b).state =
    ((s.setRuntime c.fields.id (doneRuntime s c b)).lateAndSnapshot c (doneRuntime s c b)).withdrawSet c.fields.id := by
  refine settleChange_done ?_ c rfl
  rw [(lateAndSnapshot_alarmsOnly ..).cues]
  exact hp

theorem doneAtOnce_cues {s : State} (hp : s.cues.swapPending = false) (c : Cue) (b : Bool) :
    (s.doneAtOnce c b).state.cues = (s.setRuntime c.fields.id (doneRuntime s c b)).cues := by
  rw [doneAtOnce_state hp]
  exact (lateAndSnapshot_alarmsOnly ..).cues

theorem doneAtOnce_alarmsOnly {s : State} (hp : s.cues.swapPending = false) (c : Cue) (b : Bool) :
    let t := (s.doneAtOnce c b).state
    AlarmsOnly { s with
      cues := { s.cues with live := t.cues.live }
      round := { s.round with sets := s.round.sets.filter (fun a => a.cue != c.fields.id) } } t := by
  intro t
  have cues : t.cues = _ := doneAtOnce_cues hp c b
  have frame := lateAndSnapshot_alarmsOnly (s.setRuntime c.fields.id (doneRuntime s c b)) c (doneRuntime s c b)
  rw [cues]
  change AlarmsOnly _ (s.doneAtOnce c b).state
  rw [doneAtOnce_state hp]
  obtain ⟨n, p, i, a, st, fl, e⟩ := frame.elim
  rw [e]
  rfl

/-- What the alarms and snapshots of a decision that ends the cue at once are (R85, R99, R103). -/
theorem doneAtOnce_tells {s : State} (hp : s.cues.swapPending = false) (c : Cue) (b : Bool) :
    let t := (s.doneAtOnce c b).state
    let short := shortfallAt s.fieldCount c.runtime.dueField
    (0 < short → s.lateMasked c.fields.chain = false → t.alarmStands srcCueLate = true)
      ∧ (c.fields.snapshot = true → s.snaps.settings.cue = true → short = 0 → s.snapshotFits = true →
          s.snaps.store ++ [s.newSnapshot .cue (some c.fields.id)] <+: t.snaps.store)
      ∧ (c.fields.snapshot = false ∨ s.snaps.settings.cue = false → short = 0 → t.snaps = s.snaps) := by
  intro t short
  have ht : t = _ := doneAtOnce_state hp c b
  have late : (doneRuntime s c b).late = decide (0 < short) := rfl
  rw [ht]
  refine ⟨fun h hm => ?_, fun hs hc h hf => ?_, fun hs h => ?_⟩
  · exact lateAndSnapshot_stands (by rw [late]; exact decide_eq_true h) hm
  · rw [lateAndSnapshot_inTime (by rw [late]; simp [h]), if_pos (by simp [hs, hc])]
    exact requestSnapshot_stores (s := s.setRuntime c.fields.id (doneRuntime s c b)) hf ..
  · rw [lateAndSnapshot_inTime (by rw [late]; simp [h]), if_neg (by rcases hs with e | e <;> simp [e])]
    rfl

/-! ### A cue withheld (R86) -/

theorem withholdCue_again {s : State} {c : Cue} (h : c.runtime.state = .withheld) (reason : WithholdReason) :
    (s.withholdCue c reason).state = s.setRuntime c.fields.id { c.runtime with reason := reason } := by
  simp [State.withholdCue, h, State.quiet]

theorem withholdCue_entered {s : State} {c : Cue} (h : c.runtime.state = .armed) (reason : WithholdReason) :
    (s.withholdCue c reason).state
      = (s.setRuntime c.fields.id { c.runtime with state := .withheld, reason := reason, withholdCount := 0 }).raise
          (if c.fields.kind == .changeover then srcChangeoverWithheld else srcCueWithheld) (s.cueDetail c reason.asCause) := by
  have hne : (c.runtime.state == CueState.withheld) = false := by rw [h]; rfl
  simp only [State.withholdCue, hne]
  exact settleChange_goesOn (by simp [Cue.holdsSwap, h]) ⟨by simp, by simp, by simp⟩

theorem decideCue_withheld {s : State} {c : Cue} {reason : WithholdReason} (h : s.verdict c = .withheld reason) :
    s.decideCue c = s.withholdCue c reason := by simp [State.decideCue, h]

theorem decideCue_completes {s : State} {c : Cue} (h : s.verdict c = .completes) : s.decideCue c = s.doneAtOnce c false := by
  simp [State.decideCue, h]

/-- Settles O37: the verdict is the chain of checks, and each of its outcomes writes the one cue and tells the alarm unit. -/
theorem firingDecisionChecksInOrder : Obligations.FiringDecisionChecksInOrder := by
  intro s c noTake f r
  refine ⟨fun hr => ⟨fun h => ?_, fun h h1 => ?_, fun h h1 h2 => ?_, fun h h1 h2 h3 => ?_, fun h h1 h2 h3 => ?_⟩,
    fun hr => ⟨fun h => ?_, fun h h3 => ?_, fun h h3 => ?_⟩, alreadyDone_iff s f, builtIn_iff s f,
    fun reason hv hc => ⟨fun ha => ?armed, fun hw => ?withheld⟩, fun hv hc hp => ?completes⟩
  · rw [verdict_eq, if_pos h]
  · rw [verdict_eq, if_neg h, if_pos ⟨hr, h1⟩]
  · rw [verdict_eq, if_neg h, if_neg (by simp [h1]), if_pos ⟨hr, h2⟩]
  · rw [verdict_eq, if_neg h, if_neg (by simp [h1]), if_neg (by simp [h2]), if_pos h3]
  · rw [verdict_eq, if_neg h, if_neg (by simp [h1]), if_neg (by simp [h2]), if_neg h3]
  · rw [verdict_eq, if_pos h]
  · rw [verdict_eq, if_neg h, if_neg (by simp [hr]), if_neg (by simp [hr]), if_pos h3]
  · rw [verdict_eq, if_neg h, if_neg (by simp [hr]), if_neg (by simp [hr]), if_neg h3]
  case armed =>
    have ht := (congrArg Effect.state (decideCue_withheld hv)).trans (withholdCue_entered ha reason)
    generalize (s.decideCue c).state = t at ht ⊢
    have frame := raise_alarmsOnly (s.setRuntime c.fields.id { c.runtime with
      state := .withheld, reason := reason, withholdCount := 0 })
      (if c.fields.kind == .changeover then srcChangeoverWithheld else srcCueWithheld) (s.cueDetail c reason.asCause)
    rw [← ht] at frame
    refine ⟨?_, ?_, fun id hid => ?_, ?_⟩
    · rw [liveCue_congr frame.cues]
      exact liveCue_setRuntime_same hc _
    · rw [ht]
      simpa [f] using raise_stands _ (if c.fields.kind == .changeover then srcChangeoverWithheld else srcCueWithheld) _
    · rw [liveCue_congr frame.cues]
      exact liveCue_setRuntime_other hid ..
    · rw [frame.cues]
      exact frame
  case withheld =>
    rw [decideCue_withheld hv, withholdCue_again hw]
    exact ⟨liveCue_setRuntime_same hc _, fun id hid => liveCue_setRuntime_other hid .., rfl⟩
  case completes =>
    intro t short
    have ht : t = (s.doneAtOnce c false).state := congrArg Effect.state (decideCue_completes hv)
    have hshort : shortfallAt s.fieldCount c.runtime.dueField = short := shortfallAt_eq ..
    have tells := doneAtOnce_tells hp c false
    rw [hshort] at tells
    rw [ht]
    refine ⟨?_, fun id hid => ?_, tells.1, tells.2.1, tells.2.2, doneAtOnce_alarmsOnly hp c false⟩
    · rw [liveCue_congr (doneAtOnce_cues hp ..)]
      refine (liveCue_setRuntime_same hc _).trans ?_
      simp [doneRuntime, CueRuntime.firedAt, hshort]
    · rw [liveCue_congr (doneAtOnce_cues hp ..)]
      exact liveCue_setRuntime_other hid ..

end Sys2Proof.Proofs.Decisions
end

section
/-! Firing: the runtime of the fired cue, its action set, its commanded parts (R57, R88, R89, R93 to R99, R130), and the take
(R81, R82). -/

namespace Sys2Proof.Proofs.Firing

open Sys2Proof Sys2Proof.Machine Sys2Proof.Proofs.Tasks Sys2Proof.Proofs.Handling Sys2Proof.Proofs.Fates
  Sys2Proof.Proofs.Snapshots Sys2Proof.Proofs.Decisions

/-! ### What a firing reads -/

/-- The records that a firing reads are the same: the chains, the groups, the field count, the waiting sets. -/
structure SameWorks (s t : State) : Prop where
  chains : t.chains = s.chains
  groupA : t.groupA = s.groupA
  groupB : t.groupB = s.groupB
  fieldCount : t.fieldCount = s.fieldCount
  sets : t.round.sets = s.round.sets

variable {s t : State}

theorem SameWorks.of_alarms (h : AlarmsOnly s t) : SameWorks s t := ⟨h.chains, h.groupA, h.groupB, h.fieldCount, h.sets⟩

theorem SameWorks.trans {u : State} (h : SameWorks s t) (k : SameWorks t u) : SameWorks s u :=
  ⟨k.chains.trans h.chains, k.groupA.trans h.groupA, k.groupB.trans h.groupB, k.fieldCount.trans h.fieldCount,
    k.sets.trans h.sets⟩

theorem SameWorks.chain (h : SameWorks s t) (n : ChainNo) : t.chain n = s.chain n := State.chain_congr h.chains n

theorem SameWorks.group (h : SameWorks s t) (g : GroupId) : t.group g = s.group g := State.group_congr h.groupA h.groupB g

theorem SameWorks.groupOf (h : SameWorks s t) (n : ChainNo) : t.groupOf n = s.groupOf n := by
  simp only [State.groupOf, h.groupA, h.groupB]

theorem SameWorks.setCommanded (h : SameWorks s t) (n : ChainNo) (x : Commanded) :
    SameWorks (s.setCommanded n x) (t.setCommanded n x) := by
  refine ⟨?_, h.groupA, h.groupB, h.fieldCount, h.sets⟩
  simp only [State.setCommanded, State.setChain, h.chain, h.chains]

theorem SameWorks.setGroup (h : SameWorks s t) (g : GroupId) (r : GroupRecord) : SameWorks (s.setGroup g r) (t.setGroup g r) := by
  obtain ⟨c, a, b, f, x⟩ := h
  cases g
  · exact ⟨c, rfl, b, f, x⟩
  · exact ⟨c, a, rfl, f, x⟩

theorem SameWorks.commandChangeover (h : SameWorks s t) (f : CueFields) :
    SameWorks (s.commandChangeover f) (t.commandChangeover f) := by
  unfold State.commandChangeover
  rw [h.groupOf]
  cases s.groupOf f.chain with
  | none => exact h
  | some x =>
    obtain ⟨g, i⟩ := x
    dsimp only
    rw [h.group, h.chain]
    have opened := h.setCommanded f.chain { (s.chain f.chain).commanded with shutter := .opened }
    cases (s.group g).holder with
    | none =>
      dsimp only
      rw [opened.group]
      exact opened.setGroup ..
    | some o =>
      dsimp only
      rw [opened.chain]
      have closed := opened.setCommanded o { ((s.setCommanded f.chain { (s.chain f.chain).commanded with
        shutter := .opened }).chain o).commanded with shutter := .closed }
      rw [closed.group]
      exact closed.setGroup ..

theorem SameWorks.commandFor (h : SameWorks s t) (f : CueFields) (lamp : Bool) :
    SameWorks (s.commandFor f lamp) (t.commandFor f lamp) := by
  unfold State.commandFor State.expectedField
  dsimp only
  rw [h.chain, h.fieldCount]
  cases f.kind
  case changeover => exact h.commandChangeover f
  case mark => exact h
  all_goals exact h.setCommanded ..

theorem SameWorks.actionsOf (h : SameWorks s t) (c : Cue) : t.actionsOf c = s.actionsOf c := by
  unfold State.actionsOf
  dsimp only
  rw [h.chain, h.groupOf]
  cases c.fields.kind
  case changeover =>
    cases s.groupOf c.fields.chain with
    | none => rfl
    | some x => dsimp only; rw [h.group]
  all_goals rfl

theorem SameWorks.queueActions (h : SameWorks s t) (c : Cue) : SameWorks (s.queueActions c) (t.queueActions c) := by
  have waits : t.setWaits c.fields.id = s.setWaits c.fields.id := by simp only [State.setWaits, h.sets]
  unfold State.queueActions
  rw [waits, h.actionsOf]
  split
  · exact ⟨h.chains, h.groupA, h.groupB, h.fieldCount, by simp only [State.joinSet, h.sets]⟩
  · exact ⟨h.chains, h.groupA, h.groupB, h.fieldCount, by simp only [State.queueSet, h.sets]⟩

/-! ### What a firing writes -/

/-- LAMP UP is in the set of a START whose lamp lead is not 0 and whose lamp-up has not been sent (R96). -/
def lampNow (s : State) (c : Cue) : Bool :=
  c.fields.kind == .start && 0 < (s.chain c.fields.chain).config.lampLead && !c.runtime.lampSent

/-- The runtime of a fired cue (R88). -/
def firedRuntime (s : State) (c : Cue) : CueRuntime :=
  { c.runtime.firedAt s.fieldCount with
    state := .fired, effectField := some (s.fieldCount + 2), confirmCount := 0
    lampSent := c.runtime.lampSent || lampNow s c
    expected := if c.fields.kind == .start then some (s.expectedField c.fields.chain) else none }

/-- The state after the raising of CUE LATE. -/
def firedLate (s : State) (c : Cue) : State :=
  if (firedRuntime s c).late then (s.setRuntime c.fields.id (firedRuntime s c)).raiseLate c
  else s.setRuntime c.fields.id (firedRuntime s c)

/-- The state after the queueing of the set and the writing of the commanded part. -/
def firedWorks (s : State) (c : Cue) : State := ((firedLate s c).queueActions c).commandFor c.fields (lampNow s c)

theorem firedLate_alarmsOnly (s : State) (c : Cue) : AlarmsOnly (s.setRuntime c.fields.id (firedRuntime s c)) (firedLate s c) :=
  lateIf_alarmsOnly ..

theorem firedWorks_cues (s : State) (c : Cue) :
    (firedWorks s c).cues = (s.setRuntime c.fields.id (firedRuntime s c)).cues := by
  simp only [firedWorks, commandFor_cues, queueActions_cues]
  exact (firedLate_alarmsOnly s c).cues

/-- While a cue is WITHHELD or FIRED a cue that goes on changes nothing more (R70, R77). -/
theorem settleChange_held {u : State} (h : u.swapFree = false) {c : Cue} {r : CueRuntime}
    (hr : r.state ≠ .done ∧ r.state ≠ .failed ∧ r.state ≠ .abandoned) : (u.settleChange c r).state = u := by
  obtain ⟨h1, h2, h3⟩ := hr
  simp [State.settleChange, h, h1, h2, h3]

/-- The FIRED cue itself holds a pending swap, so that its firing takes none (R68, R70). -/
theorem fireCue_state (s : State) {c : Cue} (hc : s.liveCue c.fields.id = some c) : (s.fireCue c).state =
    if c.fields.snapshot && (firedWorks s c).snaps.settings.cue then
      (firedWorks s c).requestSnapshot .cue (some c.fields.id)
    else firedWorks s c := by
  generalize hu : (if c.fields.snapshot && (firedWorks s c).snaps.settings.cue then
      (firedWorks s c).requestSnapshot .cue (some c.fields.id) else firedWorks s c) = u
  have fires : s.fireCue c = u.settleChange c (firedRuntime s c) := by rw [← hu]; rfl
  have cues : u.cues = (s.setRuntime c.fields.id (firedRuntime s c)).cues := by
    rw [← hu, (snapshotIf_alarmsOnly ..).cues, firedWorks_cues]
  have held : u.swapFree = false := by
    have fired := (liveCue_mem ((liveCue_congr cues _).trans (liveCue_setRuntime_same hc _))).1
    simp only [State.swapFree, Bool.not_eq_false', List.any_eq_true]
    exact ⟨_, fired, rfl⟩
  rw [fires]
  exact settleChange_held held ⟨nofun, nofun, nofun⟩

theorem fireCue_alarmsOnly (s : State) {c : Cue} (hc : s.liveCue c.fields.id = some c) :
    AlarmsOnly (firedWorks s c) (s.fireCue c).state := by
  rw [fireCue_state s hc]
  exact snapshotIf_alarmsOnly ..

theorem fireCue_liveCue {s : State} {c : Cue} (hc : s.liveCue c.fields.id = some c) :
    (s.fireCue c).state.liveCue c.fields.id = some { c with runtime := firedRuntime s c } := by
  rw [liveCue_congr ((fireCue_alarmsOnly s hc).cues.trans (firedWorks_cues s c))]
  exact liveCue_setRuntime_same hc _

/-- The set and the commanded parts of a firing are read off the state before it. -/
theorem fireCue_works {s : State} {c : Cue} (hc : s.liveCue c.fields.id = some c) :
    SameWorks ((s.queueActions c).commandFor c.fields (lampNow s c)) (s.fireCue c).state :=
  have entered : SameWorks s (s.setRuntime c.fields.id (firedRuntime s c)) := ⟨rfl, rfl, rfl, rfl, rfl⟩
  (((entered.trans (.of_alarms (firedLate_alarmsOnly s c))).queueActions c).commandFor ..).trans
    (.of_alarms (fireCue_alarmsOnly s hc))

theorem commandChangeover_sets (s : State) (f : CueFields) : (s.commandChangeover f).round.sets = s.round.sets := by
  unfold State.commandChangeover
  rcases s.groupOf f.chain with _ | ⟨g, i⟩
  · rfl
  · dsimp only
    cases (s.group g).holder <;> cases g <;> rfl

theorem commandFor_sets (s : State) (f : CueFields) (lamp : Bool) : (s.commandFor f lamp).round.sets = s.round.sets := by
  unfold State.commandFor
  cases f.kind
  case changeover => exact commandChangeover_sets ..
  all_goals rfl

theorem queueActions_sets {s : State} {c : Cue} (h : c.fields.kind ≠ .start) :
    (s.queueActions c).round.sets = s.round.sets ++ [{ cue := c.fields.id, telegrams := s.actionsOf c }] := by
  simp [State.queueActions, h, State.queueSet]

theorem queueActions_chain (s : State) (c : Cue) (n : ChainNo) : (s.queueActions c).chain n = s.chain n := by
  unfold State.queueActions
  split <;> rfl

theorem queueActions_chains (s : State) (c : Cue) : (s.queueActions c).chains = s.chains := by
  unfold State.queueActions
  split <;> rfl

theorem queueActions_fieldCount (s : State) (c : Cue) : (s.queueActions c).fieldCount = s.fieldCount := by
  unfold State.queueActions
  split <;> rfl

theorem setCommanded_chains (s : State) (n : ChainNo) (x : Commanded) :
    (s.setCommanded n x).chains = s.chains.set n { s.chain n with commanded := x } := rfl

/-- The set of a firing but a START's joins the tail of class 3 (R89). -/
theorem fireCue_sets {s : State} {c : Cue} (hc : s.liveCue c.fields.id = some c) (h : c.fields.kind ≠ .start) :
    (s.fireCue c).state.round.sets = s.round.sets ++ [{ cue := c.fields.id, telegrams := s.actionsOf c }] := by
  rw [(fireCue_works hc).sets, commandFor_sets, queueActions_sets h]

/-- What a firing that commands its own chain writes into it. -/
theorem fireCue_commanded {s : State} {c : Cue} (hc : s.liveCue c.fields.id = some c) {x : Commanded}
    (h : (s.queueActions c).commandFor c.fields (lampNow s c) = (s.queueActions c).setCommanded c.fields.chain x) :
    (s.fireCue c).state.chains = s.chains.set c.fields.chain { s.chain c.fields.chain with commanded := x } := by
  rw [(fireCue_works hc).chains, h, setCommanded_chains, queueActions_chains, queueActions_chain]

/-! ### A START's set (R89, R96) -/

/-- The telegrams of a START: LAMP UP when it is due now, and RUN. -/
theorem actionsOf_start {s : State} {c : Cue} (h : c.fields.kind = .start) : s.actionsOf c =
    (if decide (0 < (s.chain c.fields.chain).config.lampLead) && !c.runtime.lampSent then
        [cueAction c.fields.chain kindLampUp c.fields.id] else [])
      ++ [cueAction c.fields.chain kindRun c.fields.id] := by
  simp [State.actionsOf, h]

theorem setWaits_iff (s : State) (id : CueId) : s.setWaits id = true ↔ ∃ a ∈ s.round.sets, a.cue = id := by
  simp [State.setWaits]

theorem queueActions_start_tail {s : State} {c : Cue} (h : ∀ a ∈ s.round.sets, a.cue ≠ c.fields.id) :
    (s.queueActions c).round.sets = s.round.sets ++ [{ cue := c.fields.id, telegrams := s.actionsOf c }] := by
  have : s.setWaits c.fields.id = false := by
    rw [← Bool.not_eq_true, setWaits_iff]
    rintro ⟨a, ha, e⟩
    exact h a ha e
  simp [State.queueActions, this, State.queueSet]

theorem queueActions_start_join {s : State} {c : Cue} (hk : c.fields.kind = .start)
    (h : ∃ a ∈ s.round.sets, a.cue = c.fields.id) :
    (s.queueActions c).round.sets = s.round.sets.map (fun a =>
      if a.cue = c.fields.id then { a with telegrams := a.telegrams ++ s.actionsOf c } else a) := by
  simp [State.queueActions, hk, (setWaits_iff ..).mpr h, State.joinSet]

/-! ### A changeover's set, commanded parts and flight (R130) -/

theorem actionsOf_changeover {s : State} {c : Cue} {g : GroupId} {i : InputNo} (h : c.fields.kind = .changeover)
    (hg : s.groupOf c.fields.chain = some (g, i)) : s.actionsOf c =
    [selectTelegram g i, cueAction c.fields.chain kindShutterOpen c.fields.id]
      ++ ((s.group g).holder.map (fun o => cueAction o kindShutterClose c.fields.id)).toList := by
  simp only [State.actionsOf, h, hg]
  cases (s.group g).holder <;> rfl

/-- The dowser of the incoming chain is opened, that of another outgoing chain closed; nothing else of a chain is commanded. -/
theorem commandChangeover_chain {s : State} {f : CueFields} {g : GroupId} {i : InputNo} (hg : s.groupOf f.chain = some (g, i))
    (m : ChainNo) : (s.commandChangeover f).chain m =
      if (s.group g).holder = some m then { s.chain m with commanded := { (s.chain m).commanded with shutter := .closed } }
      else if m = f.chain then { s.chain m with commanded := { (s.chain m).commanded with shutter := .opened } }
      else s.chain m := by
  have put (u : State) (n m : ChainNo) (x : Commanded) :
      (u.setCommanded n x).chain m = if m = n then { u.chain m with commanded := x } else u.chain m := by
    split
    · next e => subst e; simp [State.setCommanded]
    · next e => exact State.chain_setChain_ne _ _ _ _ e
  have group (u : State) (r : GroupRecord) : (u.setGroup g r).chain m = u.chain m := by cases g <;> rfl
  simp only [State.commandChangeover, hg]
  rw [group]
  cases (s.group g).holder with
  | none => simp +contextual [put]
  | some o =>
    by_cases e : o = m
    · subst e
      by_cases k : o = f.chain <;> simp +contextual [put, k]
    · have : m ≠ o := fun k => e k.symm
      simp +contextual [put, e, this]

theorem commandChangeover_flight {s : State} {f : CueFields} {g : GroupId} {i : InputNo}
    (hg : s.groupOf f.chain = some (g, i)) : ((s.commandChangeover f).group g).inFlight
      = some { cue := f.id, incoming := f.chain, input := i, outgoing := (s.group g).holder } := by
  simp [State.commandChangeover, hg]

theorem queueActions_groups (s : State) (c : Cue) :
    (s.queueActions c).groupA = s.groupA ∧ (s.queueActions c).groupB = s.groupB := by
  unfold State.queueActions
  split <;> exact ⟨rfl, rfl⟩

theorem queueActions_groupOf (s : State) (c : Cue) (n : ChainNo) : (s.queueActions c).groupOf n = s.groupOf n := by
  obtain ⟨ha, hb⟩ := queueActions_groups s c
  simp only [State.groupOf, ha, hb]

theorem queueActions_group (s : State) (c : Cue) (g : GroupId) : (s.queueActions c).group g = s.group g := by
  obtain ⟨ha, hb⟩ := queueActions_groups s c
  exact State.group_congr ha hb g

/-! ### The alarm and the snapshot of a firing -/

theorem queueActions_snaps (s : State) (c : Cue) : (s.queueActions c).snaps = s.snaps := by
  unfold State.queueActions
  split <;> rfl

theorem commandFor_snaps (s : State) (f : CueFields) (lamp : Bool) : (s.commandFor f lamp).snaps = s.snaps := by
  unfold State.commandFor
  cases f.kind
  case changeover =>
    dsimp only
    unfold State.commandChangeover
    rcases s.groupOf f.chain with _ | ⟨g, i⟩
    · rfl
    · dsimp only
      cases (s.group g).holder <;> cases g <;> rfl
  all_goals rfl

theorem firedWorks_cuesOnly (s : State) (c : Cue) : CuesOnly s (firedWorks s c) :=
  (((setRuntime_cuesOnly ..).trans (firedLate_alarmsOnly s c).cuesOnly).trans (queueActions_cuesOnly ..)).trans
    (commandFor_cuesOnly ..)

theorem firedWorks_snaps {s : State} {c : Cue} (h : (firedRuntime s c).late = false) : (firedWorks s c).snaps = s.snaps := by
  simp [firedWorks, commandFor_snaps, queueActions_snaps, firedLate, h]

/-- What the alarms and snapshots of a firing are (R52, R88, R117, R178). -/
theorem fireCue_tells {s : State} {c : Cue} (hc : s.liveCue c.fields.id = some c) :
    let t := (s.fireCue c).state
    let short := shortfallAt s.fieldCount c.runtime.dueField
    (0 < short → s.lateMasked c.fields.chain = false → t.alarmStands srcCueLate = true)
      ∧ (c.fields.snapshot = true → s.snaps.settings.cue = true → short = 0 → s.snapshotFits = true →
          s.snaps.store ++ [s.newSnapshot .cue (some c.fields.id)] <+: t.snaps.store)
      ∧ (c.fields.snapshot = false ∨ s.snaps.settings.cue = false → short = 0 → t.snaps = s.snaps) := by
  intro t short
  have ht : t = _ := fireCue_state s hc
  have late : (firedRuntime s c).late = decide (0 < short) := rfl
  have inTime (h : short = 0) : (firedWorks s c).snaps = s.snaps := firedWorks_snaps (by rw [late]; simp [h])
  rw [ht]
  refine ⟨fun h hm => ?_, fun hs hc h hf => ?_, fun hs h => ?_⟩
  · have raised : (firedLate s c).alarmStands srcCueLate = true := by
      rw [firedLate, if_pos (by rw [late]; exact decide_eq_true h)]
      exact raiseLate_stands hm
    exact (((queueActions_handled ..).trans (commandFor_handled ..)).trans (snapshotIf_handled ..)).stands (by simp) (by decide)
      raised
  · rw [if_pos (by simp [inTime h, hs, hc])]
    have fits : (firedWorks s c).snapshotFits = true := by simpa only [State.snapshotFits, inTime h] using hf
    have stores := requestSnapshot_stores fits .cue (some c.fields.id)
    rwa [inTime h, newSnapshot_cuesOnly (firedWorks_cuesOnly s c)] at stores
  · rw [if_neg (by rw [inTime h]; rcases hs with e | e <;> simp [e]), inTime h]

/-! ### The take -/

/-- The state of a take given: the cue has it and acts on it (R81, R82). -/
theorem giveTake_given {s : State} {c : Cue} (h : s.cues.live.find? Cue.wantsTake = some c) :
    s.giveTake = (s.setRuntime c.fields.id { c.runtime with takeGiven := true }).carryOut [.taken c.fields.id] := by
  simp only [State.giveTake, State.takeCandidate, h]

theorem giveTake_none {s : State} (h : s.cues.live.find? Cue.wantsTake = none) : s.giveTake = s := by
  simp only [State.giveTake, State.takeCandidate, h]

theorem exec_take_ready {s : State} (hs : s.deskReady = true) : exec (.take []) s
    = .next (s.listening.giveTake.answered 0x07 ((s.cues.live.find? Cue.wantsTake).map (fun c => c.fields.id)) none []) :=
  congrArg Host.Outcome.next (deskCommand_one hs _ _ _ _ none [] rfl (giveTake_cuesOnly s.listening).fieldCount)

theorem giveTake_takeGiven {s : State} (hp : s.cues.swapPending = false) (hb : bankSound s.cues.live = true) {c : Cue}
    (h : s.cues.live.find? Cue.wantsTake = some c) :
    ∃ d, s.giveTake.liveCue c.fields.id = some d ∧ d.runtime.takeGiven = true := by
  have calm : Calm s := .of_bankSound hp hb
  have hc := liveCue_of_mem calm.2 (List.mem_of_find?_eq_some h)
  have given : SameLists s (s.setRuntime c.fields.id { c.runtime with takeGiven := true }) :=
    ⟨putRuntime_fields .., rfl, rfl, rfl⟩
  rw [giveTake_given h]
  exact carryOut_takeGiven (given.calm calm) (liveCue_setRuntime_same hc _) _

/-! ### A decision that passes -/

theorem decideCue_fires {s : State} {c : Cue} (hv : s.verdict c = .passes) (hr : s.cues.rehearse = false)
    (hk : c.fields.kind ≠ .mark) : s.decideCue c = s.fireCue c := by
  simp [State.decideCue, hv, hr, hk]

theorem decideCue_done {s : State} {c : Cue} (hv : s.verdict c = .passes) (h : c.fields.kind = .mark ∨ s.cues.rehearse = true) :
    s.decideCue c = s.doneAtOnce c s.cues.rehearse := by
  cases hr : s.cues.rehearse with
  | true => simp [State.decideCue, hv, hr]
  | false =>
    have hk : c.fields.kind = .mark := by simpa [hr] using h
    simp [State.decideCue, hv, hr, hk]

/-- Settles O35: the take goes to the first cue that wants it; a firing is read off its runtime, its set and its commanded parts. -/
theorem takeGoesToEarliestCandidate : Obligations.TakeGoesToEarliestCandidate := by
  refine ⟨fun s hs => ⟨fun h => ?discarded, fun c h hp hb => ?given⟩, fun s c hc hk => ?fires, fun s c hc hp hv h => ?ends⟩
  case discarded => rw [exec_take_ready hs, h, giveTake_none (s := s.listening) h]; rfl
  case given =>
    obtain ⟨d, hd, hg⟩ := giveTake_takeGiven (s := s.listening) hp hb h
    refine ⟨_, exec_take_ready hs, ?_, ?_⟩
    · change (s.listening.giveTake.liveCue c.fields.id).map _ = _
      rw [hd, Option.map_some, hg]
    · rw [h]
      exact (giveTake_cuesOnly s.listening).answered ..
  case fires =>
    intro t g n id before lamp short queued wrote expected start
    have hshort : shortfallAt s.fieldCount c.runtime.dueField = short := shortfallAt_eq ..
    have tells := fireCue_tells hc
    rw [hshort] at tells
    refine ⟨fun hv hr => decideCue_fires hv hr hk, ⟨_, fireCue_liveCue hc, rfl, rfl, rfl, rfl, rfl, hshort, ?_, rfl, rfl, ?_⟩,
      tells.1, fun h => ⟨?_, ?_⟩, fun h => ⟨?_, ?_⟩, fun h hs => ⟨?_, ?_⟩, fun h hs => ⟨?_, ?_⟩,
      fun h => ⟨?_, fun hw => ?_, fun hw => ?_⟩, fun g' i h hg => ?changeover, tells.2.1, tells.2.2⟩
    · simp [firedRuntime, CueRuntime.firedAt, hshort]
    · intro h
      simp [firedRuntime, CueRuntime.firedAt, h, lampNow, lamp, expected, State.expectedField, g, n]
    · exact (fireCue_sets hc (by rw [h]; nofun)).trans (by simp [State.actionsOf, h, n, id])
    · exact fireCue_commanded hc (by simp [State.commandFor, h, queueActions_chain, before, n])
    · exact (fireCue_sets hc (by rw [h]; nofun)).trans (by simp [State.actionsOf, h, n, id])
    · exact fireCue_commanded hc (by simp [State.commandFor, h, queueActions_chain, before, n])
    · exact (fireCue_sets hc (by rw [h]; nofun)).trans (by simp [State.actionsOf, h, hs, n, id])
    · exact fireCue_commanded hc (by simp [State.commandFor, h, hs, queueActions_chain, before, n])
    · exact (fireCue_sets hc (by rw [h]; nofun)).trans (by simp [State.actionsOf, h, hs, n, id])
    · exact fireCue_commanded hc (by simp [State.commandFor, h, hs, queueActions_chain, before, n])
    · exact fireCue_commanded hc (by
        simp [State.commandFor, h, queueActions_chain, queueActions_fieldCount, before, n, lampNow, lamp, expected,
          State.expectedField, g])
    · change (s.fireCue c).state.round.sets = _
      rw [(fireCue_works hc).sets, commandFor_sets, queueActions_start_tail hw, actionsOf_start h]
    · change (s.fireCue c).state.round.sets = _
      rw [(fireCue_works hc).sets, commandFor_sets, queueActions_start_join h hw, actionsOf_start h]
    case changeover =>
      have hg' : (s.queueActions c).groupOf c.fields.chain = some (g', i) := (queueActions_groupOf ..).trans hg
      have commands : (s.queueActions c).commandFor c.fields (lampNow s c) = (s.queueActions c).commandChangeover c.fields := by
        simp [State.commandFor, h]
      have chain (m : ChainNo) := ((fireCue_works hc).chain m).trans (commands ▸ commandChangeover_chain hg' m)
      simp only [queueActions_group, queueActions_chain] at chain
      refine ⟨?_, ?_, fun ho => ?_, fun o ho hne => ?_, fun m => ?_, fun m hm hout => ?_⟩
      · exact (fireCue_sets hc (by rw [h]; nofun)).trans (by rw [actionsOf_changeover h hg])
      · refine ((congrArg GroupRecord.inFlight ((fireCue_works hc).group g')).trans
          (commands ▸ commandChangeover_flight hg')).trans ?_
        rw [queueActions_group]
      · rw [chain, if_neg ho, if_pos rfl]
      · rw [chain, if_pos ho]
      · exact (fireCue_cuesOnly s c).tracked m
      · rw [chain, if_neg hout, if_neg hm]
  case ends =>
    rw [decideCue_done hv h]
    intro t
    have frame := doneAtOnce_alarmsOnly hp c s.cues.rehearse
    refine ⟨⟨{ c with runtime := doneRuntime s c s.cues.rehearse }, ?_, rfl, rfl, rfl, rfl, rfl⟩, frame.chains, frame.groupA,
      frame.groupB, frame.sets⟩
    exact (liveCue_congr (doneAtOnce_cues hp ..) _).trans (liveCue_setRuntime_same hc _)

end Sys2Proof.Proofs.Firing
end

section
/-! Eligibility, what follows a change of state, and ABANDON (R72, R73, R77, R80, R106). -/

namespace Sys2Proof.Proofs.Abandoning

open Sys2Proof Sys2Proof.Machine Sys2Proof.Proofs.Tasks Sys2Proof.Proofs.Fates Sys2Proof.Proofs.WholeBank
  Sys2Proof.Proofs.Decisions

/-! ### Heads -/

theorem unfinished_iff (c : Cue) : c.unfinished ↔ c.runtime.state.finished = false := by
  unfold Cue.unfinished
  cases c.runtime.state <;> simp [CueState.finished]

/-- The head of a chain is its earliest unfinished cue (R72). -/
theorem headOf_iff (live : List Cue) (n : ChainNo) (c : Cue) : headOf live n = some c ↔ isHead live n c := by
  simp only [headOf, isHead, unfinished_iff, List.find?_eq_some_iff_append, Bool.and_eq_true, beq_iff_eq,
    Bool.and_eq_false_imp, Bool.not_eq_false, Bool.not_eq_eq_eq_not, Bool.not_true]
  exact ⟨fun ⟨⟨hn, hu⟩, front, back, e, hf⟩ => ⟨front, back, e, hn, hu, hf⟩,
    fun ⟨front, back, e, hn, hu, hf⟩ => ⟨⟨hn, hu⟩, front, back, e, hf⟩⟩

/-- The heads of a bank in list order, those of the chains seen apart. -/
def headCues : List Cue → List ChainNo → List Cue
  | [], _ => []
  | c :: rest, seen =>
    if c.runtime.state.finished || seen.contains c.fields.chain then headCues rest seen
    else c :: headCues rest (c.fields.chain :: seen)

theorem headsInOrder_eq : ∀ (l : List Cue) (seen : List ChainNo),
    headsInOrder l seen = (headCues l seen).map (fun c => c.fields.chain)
  | [], _ => rfl
  | c :: rest, seen => by
    unfold headsInOrder headCues
    split
    · exact headsInOrder_eq rest seen
    · rw [headsInOrder_eq rest _]; rfl

theorem headCues_sublist : ∀ (l : List Cue) (seen : List ChainNo), (headCues l seen).Sublist l
  | [], _ => .slnil
  | c :: rest, seen => by
    unfold headCues
    split
    · exact (headCues_sublist rest seen).cons _
    · exact (headCues_sublist rest _).cons_cons _

/-- The cues so listed are the heads of the chains not seen. -/
theorem mem_headCues (c : Cue) : ∀ (l : List Cue) (seen : List ChainNo),
    c ∈ headCues l seen ↔ c.fields.chain ∉ seen ∧ headOf l c.fields.chain = some c
  | [], _ => by simp [headCues, headOf]
  | x :: rest, seen => by
    have ih := mem_headCues c rest
    unfold headCues
    by_cases hx : x.runtime.state.finished = true
    · have skip : headOf (x :: rest) c.fields.chain = headOf rest c.fields.chain := by simp [headOf, hx]
      simp [hx, ih, skip]
    · by_cases hn : x.fields.chain = c.fields.chain
      · have found : headOf (x :: rest) c.fields.chain = some x := by simp [headOf, hx, hn]
        by_cases hs : c.fields.chain ∈ seen
        · simp [hx, hn, hs, ih]
        · simp only [hx, hn, hs, List.contains_eq_mem, decide_false, Bool.or_self, Bool.false_eq_true, if_false, List.mem_cons, ih,
            found, Option.some.injEq, not_true_eq_false, not_false_eq_true, true_and, false_and, or_false]
          exact eq_comm
      · have skip : headOf (x :: rest) c.fields.chain = headOf rest c.fields.chain := by simp [headOf, hn]
        have ne : c ≠ x := fun e => hn (by rw [e])
        have hn' : ¬ c.fields.chain = x.fields.chain := fun e => hn e.symm
        by_cases hs : x.fields.chain ∈ seen <;> simp [hx, hs, ih, skip, ne, hn']

theorem headCues_chains_nodup : ∀ (l : List Cue) (seen : List ChainNo), ((headCues l seen).map (fun c => c.fields.chain)).Nodup
  | [], _ => .nil
  | x :: rest, seen => by
    unfold headCues
    split
    · exact headCues_chains_nodup rest seen
    · refine List.nodup_cons.mpr ⟨fun h => ?_, headCues_chains_nodup rest _⟩
      obtain ⟨c, hc, e⟩ := List.mem_map.mp h
      exact ((mem_headCues c rest _).mp hc).1 (by simp [e])

/-! ### One eligibility, one follower, one change of state -/

theorem runTask_eligible_none {s : State} {n : ChainNo} (h : headOf s.cues.live n = none) : s.runTask (.eligible n) = s.quiet := by
  simp only [State.runTask, State.computeEligible, h]

theorem runTask_eligible_other {s : State} {n : ChainNo} {c : Cue} (h : headOf s.cues.live n = some c)
    (hw : c.runtime.state ≠ .waiting) : s.runTask (.eligible n) = s.quiet := by
  simp [State.runTask, State.computeEligible, h, hw]

theorem runTask_eligible_waiting {s : State} {n : ChainNo} {c : Cue} (h : headOf s.cues.live n = some c)
    (hw : c.runtime.state = .waiting) : s.runTask (.eligible n)
      = (s.armed c).afterArming { c with runtime := { c.runtime with state := .armed } } := by
  simp [State.runTask, State.computeEligible, h, hw, State.armed]

/-- An unfinished cue has no changeover in flight to end (R131). -/
theorem endFlight_unfinished (s : State) {c : Cue} (h : c.unfinished) : s.endFlight c = s := by
  have : (c.runtime.state == CueState.fired) = false := by rcases h with h | h | h <;> rw [h] <;> rfl
  simp [State.endFlight, this]

theorem swapFree_iff (s : State) :
    s.swapFree = true ↔ ∀ d ∈ s.cues.live, d.runtime.state ≠ .withheld ∧ d.runtime.state ≠ .fired := by
  simp [State.swapFree, Cue.holdsSwap]

/-- What a change of state leaves of the waiting sets (R77). -/
def afterChange (s : State) (c : Cue) (r : CueRuntime) : State :=
  if r.state == .done || r.state == .failed || r.state == .abandoned then
    { s with round := { s.round with sets := s.round.sets.filter (fun a => a.cue != c.fields.id) } }
  else s

theorem afterChange_cues (s : State) (c : Cue) (r : CueRuntime) : (afterChange s c r).cues = s.cues := by
  unfold afterChange
  split <;> rfl

/-- What follows a change of state: the swap, or followers and eligibility (R70, R77). -/
theorem settleChange_eq (s : State) (c : Cue) (r : CueRuntime) : s.settleChange c r =
    if (c.runtime.state = .withheld ∨ c.runtime.state = .fired) ∧ s.cues.swapPending = true
        ∧ ∀ d ∈ s.cues.live, d.runtime.state ≠ .withheld ∧ d.runtime.state ≠ .fired then
      { state := (afterChange s c r).takeSwap, tasks := (afterChange s c r).takeSwap.eligibleAll, swapped := true }
    else
      { state := afterChange s c r
        tasks := (if r.state == .failed || r.state == .abandoned then followersOf s.cues.live c.fields.id else [])
          ++ [.eligible c.fields.chain] } := by
  have free : (afterChange s c r).swapFree = s.swapFree := by simp only [State.swapFree, afterChange_cues]
  have swaps : (c.holdsSwap && (afterChange s c r).cues.swapPending && (afterChange s c r).swapFree) = true
      ↔ (c.runtime.state = .withheld ∨ c.runtime.state = .fired) ∧ s.cues.swapPending = true
        ∧ ∀ d ∈ s.cues.live, d.runtime.state ≠ .withheld ∧ d.runtime.state ≠ .fired := by
    rw [free, afterChange_cues, Bool.and_eq_true, Bool.and_eq_true, swapFree_iff, and_assoc]
    simp [Cue.holdsSwap]
  change (if c.holdsSwap && (afterChange s c r).cues.swapPending && (afterChange s c r).swapFree then
      ({ state := (afterChange s c r).takeSwap, tasks := (afterChange s c r).takeSwap.eligibleAll, swapped := true } : Effect)
    else { state := afterChange s c r, tasks := (if r.state == .failed || r.state == .abandoned then
        followersOf (afterChange s c r).cues.live c.fields.id else []) ++ [.eligible c.fields.chain] }) = _
  rw [if_congr swaps rfl rfl, afterChange_cues]

theorem settleChange_tasks {s : State} (hp : s.cues.swapPending = false) (c : Cue) (r : CueRuntime) :
    (s.settleChange c r).tasks
      = (if r.state == .failed || r.state == .abandoned then followersOf s.cues.live c.fields.id else [])
        ++ [.eligible c.fields.chain] := by
  rw [settleChange_eq, if_neg (by simp [hp])]

/-! ### A chain's head after its eligibility (R72, R73) -/

/-- The head of a chain, if it has one, is not WAITING. -/
def HeadReady (n : ChainNo) (s : State) : Prop := ∀ c, headOf s.cues.live n = some c → c.runtime.state ≠ .waiting

theorem headOf_brief (s : State) (n : ChainNo) :
    (headOf s.cues.live n).map Cue.brief = s.briefs.find? (fun b => b.chain == n && !b.state.finished) := by
  simp only [headOf, State.briefs, List.find?_map]
  rfl

theorem HeadReady.congr {s t : State} {n : ChainNo} (h : t.briefs = s.briefs) (hs : HeadReady n s) : HeadReady n t := by
  intro c hc hw
  have same : (headOf s.cues.live n).map Cue.brief = some c.brief := by
    rw [headOf_brief, ← h, ← headOf_brief, hc]; rfl
  obtain ⟨d, hd, e⟩ := Option.map_eq_some_iff.mp same
  exact hs d hd ((congrArg Brief.state e).trans hw)

/-- A head whose runtime is written and who stays unfinished is the head still. -/
theorem headOf_putRuntime {n : ChainNo} {c : Cue} {r : CueRuntime} (hr : r.state.finished = false) :
    ∀ {l : List Cue}, (l.map (fun c => c.fields.id)).Nodup → headOf l n = some c →
      headOf (putRuntime l c.fields.id r) n = some { c with runtime := r }
  | [], _, h => nomatch h
  | x :: rest, hn, h => by
    simp only [List.map_cons, List.nodup_cons] at hn
    by_cases hx : x.fields.chain = n ∧ x.runtime.state.finished = false
    · obtain rfl : x = c := by simpa [headOf, hx.1, hx.2] using h
      simp [headOf, putRuntime, hx.1, hr]
    · have hp : (x.fields.chain == n && !x.runtime.state.finished) = false := by simpa using hx
      have hrest : headOf rest n = some c := by simpa [headOf, List.find?_cons, hp] using h
      have hne : ¬ x.fields.id = c.fields.id := fun e =>
        hn.1 (e ▸ List.mem_map_of_mem (f := fun c : Cue => c.fields.id) (List.mem_of_find?_eq_some hrest))
      have ih := headOf_putRuntime hr hn.2 hrest
      simpa [headOf, putRuntime, List.find?_cons, hne, hp] using ih

/-- Arming a WAITING head and handing it on leaves its chain's head ready, or computes its eligibility again last. -/
theorem eligible_ready {s : State} (h : Calm s) (n : ChainNo) :
    let e := s.runTask (.eligible n)
    (e.tasks = [] ∧ HeadReady n e.state) ∨ ∃ pre, e.tasks = pre ++ [.eligible n] := by
  have hn : (s.briefs.map Brief.id).Nodup := guard_calm.apart s h
  rcases ho : headOf s.cues.live n with _ | c
  · rw [runTask_eligible_none ho]
    exact .inl ⟨rfl, fun c hc => by rw [show headOf s.quiet.state.cues.live n = none from ho] at hc; cases hc⟩
  · by_cases hw : c.runtime.state = .waiting
    · have hm := List.mem_of_find?_eq_some ho
      have chain : c.fields.chain = n := ((headOf_iff ..).mp ho).choose_spec.choose_spec.2.1
      have head := headOf_putRuntime (r := { c.runtime with state := .armed }) rfl h.2 ho
      have hin : ({ c with runtime := { c.runtime with state := .armed } } : Cue) ∈ (s.armed c).cues.live :=
        List.mem_of_find?_eq_some head
      rw [runTask_eligible_waiting ho hw]
      rcases afterArming_acted (armed_nodup c hn) (brief_mem hin) with ⟨hb, -, -, ht, -⟩ | ⟨st, -, -, hch⟩
      · refine .inl ⟨ht, HeadReady.congr hb fun d hd => ?_⟩
        rw [show headOf (s.armed c).cues.live n = _ from head] at hd
        obtain rfl := Option.some.inj hd
        nofun
      · rcases hch with ⟨-, -, -, -, ht⟩ | ⟨hs, -⟩
        · exact .inr ⟨_, by rw [← chain]; exact ht⟩
        · have stays := (runTask_stays h.1 (.eligible n)).swapped
          rw [runTask_eligible_waiting ho hw] at stays
          exact absurd (stays.symm.trans hs) nofun
    · rw [runTask_eligible_other ho hw]
      refine .inl ⟨rfl, fun d hd => ?_⟩
      rw [show headOf s.quiet.state.cues.live n = some c from ho] at hd
      exact Option.some.inj hd ▸ hw

/-- When the eligibility of a chain is computed last, its head is left ready. -/
theorem carryOut_ready {s : State} (h : Calm s) (pre : List Task) (n : ChainNo) :
    HeadReady n (s.carryOut (pre ++ [.eligible n])) := by
  generalize hk : stepsLeft s (pre ++ [.eligible n]) = k
  induction k using Nat.strongRecOn generalizing s pre with
  | ind k ih =>
    cases pre with
    | nil =>
      have less := runTask_stepsLeft (guard_calm.apart s h) (.eligible n) []
      rw [(runTask_stays h.1 _).swapped] at less
      simp only [List.nil_append] at hk ⊢
      rw [carryOut_single h]
      rcases eligible_ready h n with ⟨ht, hr⟩ | ⟨pre, ht⟩
      · rw [ht, carryOut_nil]; exact hr
      · rw [ht] at less ⊢
        exact ih _ (by simpa [hk] using less) (runTask_calm h _) pre rfl
    | cons t rest =>
      have less := runTask_stepsLeft (guard_calm.apart s h) t (rest ++ [.eligible n])
      rw [(runTask_stays h.1 _).swapped] at less
      rw [List.cons_append] at hk ⊢
      rw [carryOut_step h, ← List.append_assoc]
      refine ih _ ?_ (runTask_calm h t) _ rfl
      rw [List.append_assoc, ← hk]
      exact less

/-! ### ABANDON -/

/-- A task that does nothing leaves the state, whatever else is pending. -/
theorem carryOut_quiet {s : State} {t : Task} (h : s.runTask t = s.quiet) : s.carryOut [t] = s := by
  have (fuel : Nat) : (runTasks fuel s []).1 = s := by cases fuel <;> rfl
  unfold State.carryOut
  rw [CueEngine.fuel, runTasks, h]
  exact this _

/-- Abandoning a cue brings the abandonment of its followers, then the eligibility of its chain (R77). -/
theorem abandonCue_tasks {s : State} (hp : s.cues.swapPending = false) (c : Cue) :
    (s.abandonCue c).tasks
      = followersOf (putRuntime s.cues.live c.fields.id (abandonedRuntime c.runtime)) c.fields.id
        ++ [.eligible c.fields.chain] := by
  let v := (s.setRuntime c.fields.id (abandonedRuntime c.runtime)).endFlight c
  have cues : v.cues = (s.setRuntime c.fields.id (abandonedRuntime c.runtime)).cues := by simp [v]
  have runs : s.abandonCue c = v.settleChange c (abandonedRuntime c.runtime) := rfl
  rw [runs, settleChange_tasks (by rw [cues]; exact hp), cues]
  rfl

theorem mem_followersOf {l : List Cue} {d : Cue} (hd : d ∈ l) {i : CueId} (h : d.fields.follow = some i) :
    Task.abandonFollower d.fields.id ∈ followersOf l i :=
  List.mem_map.mpr ⟨d, List.mem_filter.mpr ⟨hd, by simp [h]⟩, rfl⟩

/-- The eligibility of a chain leaves an unfinished FOLLOW cue as it is, or arms it (R72, R74). -/
theorem eligible_follower {s : State} (h : Calm s) {i : CueId} {d : Cue} (hd : s.liveCue i = some d)
    (hr : d.fields.release = .follow) (hu : d.unfinished) (n : ChainNo) :
    ∃ e, (s.runTask (.eligible n)).state.liveCue i = some e ∧ e.fields = d.fields ∧ e.unfinished := by
  rcases ho : headOf s.cues.live n with _ | c
  · rw [runTask_eligible_none ho]; exact ⟨d, hd, rfl, hu⟩
  · by_cases hw : c.runtime.state = .waiting
    · rw [runTask_eligible_waiting ho hw]
      have hc := liveCue_of_mem h.2 (List.mem_of_find?_eq_some ho)
      by_cases e : i = c.fields.id
      · subst e
        obtain rfl : c = d := Option.some.inj (hc.symm.trans hd)
        have quiet : (s.armed c).afterArming { c with runtime := { c.runtime with state := .armed } } = (s.armed c).quiet := by
          simp [State.afterArming, hr]
        rw [quiet]
        exact ⟨_, liveCue_setRuntime_same hd _, rfl, .inr (.inl rfl)⟩
      · have other : (s.armed c).liveCue i = some d := (liveCue_setRuntime_other e ..).trans hd
        rcases afterArming_writes (s.armed c) { c with runtime := { c.runtime with state := .armed } } with
          ⟨-, -, -, hcu | ⟨r, -, hcu⟩⟩ | ⟨-, hp, -⟩
        · exact ⟨d, (liveCue_congr hcu i).trans other, rfl, hu⟩
        · exact ⟨d, ((liveCue_congr hcu i).trans (liveCue_setRuntime_other e ..)).trans other, rfl, hu⟩
        · exact absurd (h.1.symm.trans hp) nofun
    · rw [runTask_eligible_other ho hw]; exact ⟨d, hd, rfl, hu⟩

/-- The unfinished FOLLOW cues of an abandoned cue are abandoned with it (R77, R80). -/
theorem follower_abandoned {s : State} (h : Calm s) {i : CueId} {d : Cue} (hd : s.liveCue i = some d)
    (hr : d.fields.release = .follow) (hu : d.unfinished) {tasks : List Task} (ht : ∀ t ∈ tasks, Brought t)
    (hm : Task.abandonFollower i ∈ tasks) : ∃ e, (s.carryOut tasks).liveCue i = some e ∧ e.runtime.state = .abandoned := by
  have acts {c : Cue} (hid : c.fields.id = i) (hu : c.unfinished) : Acts c (.abandonFollower i) :=
    ⟨hid.symm, by rcases hu with k | k | k <;> simp [k]⟩
  refine carryOut_abandons h (.inl rfl) (R := fun e => e.fields = d.fields ∧ e.unfinished) (T := Brought)
    (fun c hc => acts ((congrArg CueFields.id hc.1).trans (liveCue_mem hd).2) hc.2) (fun t => id) ?_ hm ht hd ⟨rfl, hu⟩
  intro u t c hcalm hb hc hR
  rcases hb with ⟨n, rfl⟩ | ⟨j, rfl⟩
  · obtain ⟨e, he, hf, hue⟩ := eligible_follower hcalm hc ((congrArg CueFields.release hR.1).trans hr) hR.2 n
    exact ⟨e, he, .inl ⟨hf.trans hR.1, hue⟩⟩
  · by_cases e : j = i
    · exact ⟨_, runTask_abandons hcalm.1 hc (.inl (e ▸ rfl)) (e ▸ acts (liveCue_mem hc).2 hR.2), .inr rfl⟩
    · rcases runTask_liveCue hcalm hc (.abandonFollower j) with k | ⟨k, -⟩
      · exact ⟨c, k, .inl hR⟩
      · exact absurd (k.1.trans (liveCue_mem hc).2) e

/-- The abandonment of a LIVE cue, and all that it brings (R106, R77, R80). -/
theorem abandonNamed_spec {s : State} (h : Calm s) {i : CueId} {c : Cue} (hc : s.liveCue i = some c)
    (hst : c.runtime.state = .waiting ∨ c.runtime.state = .armed ∨ c.runtime.state = .withheld ∨ c.runtime.state = .fired) :
    let t := s.carryOut [.abandonNamed i]
    (∃ d, t.liveCue i = some d ∧ d.runtime.state = .abandoned)
      ∧ (∀ d ∈ s.cues.live, d.fields.follow = some i → d.fields.release = .follow → d.unfinished →
          ∃ e, t.liveCue d.fields.id = some e ∧ e.runtime.state = .abandoned)
      ∧ HeadReady c.fields.chain t := by
  obtain ⟨hm, rfl⟩ := liveCue_mem hc
  have acts : Acts c (.abandonNamed c.fields.id) := ⟨rfl, by rcases hst with k | k | k | k <;> simp [k]⟩
  have own := runTask_abandons h.1 hc (.inr (.inr rfl)) acts
  have runs : s.runTask (.abandonNamed c.fields.id) = s.abandonCue c := onCue_acts hc acts.2 _
  have brings := abandonCue_tasks h.1 c
  rw [← runs] at brings
  refine ⟨⟨_, carryOut_single_finished h own rfl, rfl⟩, fun d hd hf hr hu => ?_, ?_⟩
  · by_cases e : d.fields.id = c.fields.id
    · rw [e]
      exact ⟨_, carryOut_single_finished h own rfl, rfl⟩
    · have live := liveCue_of_mem h.2 hd
      have kept : (s.runTask (.abandonNamed c.fields.id)).state.liveCue d.fields.id = some d := by
        rw [runs, liveCue_congr (abandonCue_cues h.1 c), liveCue_setRuntime_other e]
        exact live
      rw [carryOut_single h]
      refine follower_abandoned (runTask_calm h _) kept hr hu (runTask_stays h.1 _).brought ?_
      rw [brings]
      refine List.mem_append_left _ (mem_followersOf ?_ hf)
      exact (liveCue_mem ((liveCue_setRuntime_other e s _).trans live)).1
  · rw [carryOut_single h, brings]
    exact carryOut_ready (runTask_calm h _) _ _

/-- Settles O34: an abandonment brings its followers and last its chain's eligibility; the rest says what one task, and one change
of state, is. -/
theorem abandonEndsALiveCue : Obligations.AbandonEndsALiveCue := by
  refine ⟨fun s i0 i1 hs => ⟨fun hg => ?bad, fun hg hl => ?missing, fun c hg hc hst => ?finished, fun c hg hc hp hst hb => ?ends⟩,
    fun s n => ⟨fun h => ?_, fun c h hw => ?_, fun c h hw => ?_⟩, fun s => ?heads, fun s i => ⟨fun h => ?_, fun d hd hu => ?_⟩,
    fun s c r => ?change⟩
  case bad => exact congrArg Host.Outcome.next (deskCommand_refused hs _ _ _ _ _ (by simp [abandon, hg]))
  case missing => exact congrArg Host.Outcome.next (deskCommand_refused hs _ _ _ _ _ (by simp [abandon, hg, hl]))
  case finished =>
    have quiet : s.listening.runTask (.abandonNamed (word i0 i1)) = s.listening.quiet := by
      rcases hst with k | k | k <;> simp [State.runTask, State.onCue, hc, k]
    refine congrArg Host.Outcome.next (deskCommand_one hs _ _ _ _ none [] ?_ rfl)
    simp [abandon, hg, hc, carryOut_quiet quiet, accept]
  case ends =>
    obtain ⟨⟨d, hd, ha⟩, hf, hr⟩ := abandonNamed_spec (s := s.listening) (.of_bankSound hp hb) hc hst
    have frame := carryOut_cuesOnly s.listening [.abandonNamed (word i0 i1)]
    refine ⟨_, congrArg Host.Outcome.next (deskCommand_one hs _ _ _ _ none [] (t := s.listening.carryOut _) ?_ frame.fieldCount),
      ?_, fun e he hfo hre hu => ?_, fun e he => hr e ((headOf_iff ..).mpr he), frame.answered ..⟩
    · simp only [abandon, hg, listening_liveCue, hc]
      rfl
    · change ((s.listening.carryOut _).liveCue _).map _ = _
      rw [hd, Option.map_some, ha]
    · obtain ⟨x, hx, hax⟩ := hf e he hfo hre hu
      change ((s.listening.carryOut _).liveCue _).map _ = _
      rw [hx, Option.map_some, hax]
  · refine runTask_eligible_none (Option.eq_none_iff_forall_ne_some.mpr fun c hc => h ⟨c, (headOf_iff ..).mp hc⟩)
  · exact runTask_eligible_other ((headOf_iff ..).mpr h) hw
  · exact runTask_eligible_waiting ((headOf_iff ..).mpr h) hw
  case heads =>
    refine ⟨headCues s.cues.live [], headCues_sublist .., headCues_chains_nodup .., fun c => ?_, ?_⟩
    · rw [mem_headCues, ← headOf_iff]
      simp
    · simp [State.eligibleAll, headsInOrder_eq]
  · cases hl : s.liveCue i with
    | none => simp [State.runTask, State.onCue, hl]
    | some d =>
      have hu := h d hl
      simp only [Cue.unfinished, not_or] at hu
      simp [State.runTask, State.onCue, hl, hu]
  · obtain ⟨-, rfl⟩ := liveCue_mem hd
    have acts := onCue_acts hd (states := [.waiting, .armed, .withheld]) (by rcases hu with k | k | k <;> simp [k]) s.abandonCue
    refine acts.trans ?_
    rw [State.abandonCue, endFlight_unfinished _ hu]
  case change =>
    intro ended u swaps followers brings
    refine ⟨fun h => ?_, fun h hr => ?_, fun h h1 h2 => ?_⟩
    · rw [settleChange_eq, if_pos h]; rfl
    · have : (r.state == .failed || r.state == .abandoned) = true := by simpa using hr
      change s.settleChange c r = _
      rw [settleChange_eq, if_neg h, if_pos this]; rfl
    · have : ¬ (r.state == .failed || r.state == .abandoned) = true := by simp [h1, h2]
      change s.settleChange c r = _
      rw [settleChange_eq, if_neg h, if_neg this]; rfl

end Sys2Proof.Proofs.Abandoning
end

section
/-! Counting, rechecking and the FOLLOW examinations of a field close (R56, R90 to R92, R97). -/

namespace Sys2Proof.Proofs.CloseCues

open Sys2Proof Sys2Proof.Machine Sys2Proof.Proofs.Tasks Sys2Proof.Proofs.Fates Sys2Proof.Proofs.WholeBank
  Sys2Proof.Proofs.Decisions Sys2Proof.Proofs.Firing Sys2Proof.Proofs.Abandoning

/-! ### What a decision makes of its cue -/

/-- A decision makes its cue WITHHELD, FIRED or DONE and keeps its due field; one that completes or passes does not withhold. -/
theorem decideCue_liveCue {s : State} (hp : s.cues.swapPending = false) {c : Cue} (hc : s.liveCue c.fields.id = some c)
    (hst : c.runtime.state = .armed ∨ c.runtime.state = .withheld) :
    ∃ d, (s.decideCue c).state.liveCue c.fields.id = some d ∧ d.runtime.dueField = c.runtime.dueField
      ∧ ((d.runtime.state = .withheld ∧ ∃ reason, s.verdict c = .withheld reason)
        ∨ d.runtime.state = .fired ∨ d.runtime.state = .done) := by
  have done (b : Bool) : ∃ d, (s.doneAtOnce c b).state.liveCue c.fields.id = some d
      ∧ d.runtime.dueField = c.runtime.dueField ∧ d.runtime.state = .done :=
    ⟨_, (liveCue_congr (doneAtOnce_cues hp c b) _).trans (liveCue_setRuntime_same hc _), rfl, rfl⟩
  cases hv : s.verdict c with
  | withheld reason =>
    rw [decideCue_withheld hv]
    rcases hst with hst | hst
    · refine ⟨{ c with runtime := { c.runtime with state := .withheld, reason := reason, withholdCount := 0 } }, ?_, rfl,
        .inl ⟨rfl, reason, rfl⟩⟩
      rw [withholdCue_entered hst]
      exact (liveCue_congr (raise_alarmsOnly ..).cues _).trans (liveCue_setRuntime_same hc _)
    · rw [withholdCue_again hst]
      exact ⟨_, liveCue_setRuntime_same hc _, rfl, .inl ⟨hst, reason, rfl⟩⟩
  | completes =>
    rw [decideCue_completes hv]
    obtain ⟨d, hd, hdue, hs⟩ := done false
    exact ⟨d, hd, hdue, .inr (.inr hs)⟩
  | passes =>
    by_cases h : c.fields.kind = .mark ∨ s.cues.rehearse = true
    · rw [decideCue_done hv h]
      obtain ⟨d, hd, hdue, hs⟩ := done s.cues.rehearse
      exact ⟨d, hd, hdue, .inr (.inr hs)⟩
    · rw [not_or, Bool.not_eq_true] at h
      rw [decideCue_fires hv h.2 h.1]
      exact ⟨_, fireCue_liveCue hc, rfl, .inr (.inl rfl)⟩

/-! ### Counting (R92, R97) -/

theorem judges_iff (r : CueRuntime) (f : Field) : judges r.effectField f = true ↔ r.inEffect f := by
  unfold judges CueRuntime.inEffect
  cases r.effectField with
  | none => simp
  | some e => simp [notEarlier]

theorem deadlinePassed_iff (r : CueRuntime) (f : Field) :
    r.deadlinePassed f = true ↔ ∃ e, r.expected = some e ∧ 0 ≤ fieldDiff f (e + 25) := by
  unfold CueRuntime.deadlinePassed
  cases r.expected with
  | none => simp
  | some e => simp [notEarlier]

/-- A cue failed with its confirmation timed out (R92, R97). -/
def timedOut (c : Cue) : Cue :=
  { c with runtime := { c.runtime with state := .failed, cause := .confirmTimeout, effectField := none, expected := none } }

/-- A cue whose confirmation has been counted. -/
def countedOnce (c : Cue) : Cue :=
  { c with runtime := { c.runtime with confirmCount := min 30000 (c.runtime.confirmCount + 1) } }

/-- What the count of field f makes of a FIRED cue. -/
def counted (s : State) (c : Cue) (f : Field) : Cue :=
  match s.confirmLimit c.fields with
  | some limit =>
    if judges c.runtime.effectField f then
      if limit ≤ min 30000 (c.runtime.confirmCount + 1) then timedOut (countedOnce c) else countedOnce c
    else c
  | none => if c.runtime.deadlinePassed f then timedOut c else c

theorem runTask_countConfirm {s : State} (h : Calm s) {i : CueId} {c : Cue} (hc : s.liveCue i = some c)
    (hf : c.runtime.state = .fired) (f : Field) : (s.runTask (.countConfirm i f)).state.liveCue i = some (counted s c f) := by
  have acts : s.runTask (.countConfirm i f) = s.countConfirm c f := onCue_acts hc (by simp [hf]) _
  obtain ⟨-, rfl⟩ := liveCue_mem hc
  rw [acts, State.countConfirm, counted]
  cases s.confirmLimit c.fields with
  | some limit =>
    dsimp only
    split
    · split
      · exact failCue_liveCue h.1 hc ..
      · exact liveCue_setRuntime_same hc _
    · exact hc
  | none =>
    dsimp only
    split
    · exact failCue_liveCue h.1 hc ..
    · exact hc

theorem counted_finished (s : State) {c : Cue} (hf : c.runtime.state = .fired) (f : Field) :
    (counted s c f).runtime.state.finished = true := by
  have same : c.runtime.state.finished = true := by rw [hf]; rfl
  unfold counted
  split
  · split
    · split
      · rfl
      · exact same
    · exact same
  · split
    · rfl
    · exact same

theorem confirmLimit_cuesOnly {s u : State} (h : CuesOnly s u) (f : CueFields) : u.confirmLimit f = s.confirmLimit f := by
  unfold State.confirmLimit
  cases f.kind <;> simp [h.config]

theorem counted_cuesOnly {s u : State} (h : CuesOnly s u) (c : Cue) (f : Field) : counted u c f = counted s c f := by
  rw [counted, confirmLimit_cuesOnly h]
  rfl

/-- At a field close each FIRED cue is counted once (R90, R92). -/
theorem countConfirms_liveCue {s : State} (h : Calm s) {i : CueId} {c : Cue} (hc : s.liveCue i = some c)
    (hf : c.runtime.state = .fired) (f : Field) : (s.countConfirms f).liveCue i = some (counted s c f) := by
  obtain ⟨d, hd, rfl⟩ := carryOut_own h (liveIds_nodup h _) (task := fun j => .countConfirm j f) (fun _ => rfl)
    (mem_liveIds hc (p := fun c => c.runtime.state == .fired) (by simp [hf])) hc (by rw [hf]; rfl)
    (Q := fun d => d = counted s c f) fun u hu hsu hcu =>
      ⟨_, runTask_countConfirm hu hcu hf f, counted_finished u hf f, counted_cuesOnly hsu c f⟩
  exact hd

/-! ### Rechecking (R91) -/

/-- What a recheck makes of a WITHHELD cue: one that stays so has counted one more, below the limit (R91). -/
theorem runTask_recheck {s : State} (h : Calm s) {i : CueId} {c : Cue} (hc : s.liveCue i = some c)
    (hw : c.runtime.state = .withheld) :
    ∃ d, (s.runTask (.recheck i)).state.liveCue i = some d ∧ d.runtime.state ≠ .waiting
      ∧ (d.runtime.state = .withheld →
          d.runtime.withholdCount = c.runtime.withholdCount + 1 ∧ d.runtime.withholdCount < s.cues.limit) := by
  have acts : s.runTask (.recheck i) = s.recheckCue c := onCue_acts hc (by simp [hw]) _
  obtain ⟨-, rfl⟩ := liveCue_mem hc
  have decided (hv : ∀ reason, s.verdict c ≠ .withheld reason) :
      ∃ d, (s.decideCue c).state.liveCue c.fields.id = some d ∧ d.runtime.state ≠ .waiting
        ∧ (d.runtime.state = .withheld →
          d.runtime.withholdCount = c.runtime.withholdCount + 1 ∧ d.runtime.withholdCount < s.cues.limit) := by
    obtain ⟨d, hd, -, ⟨-, reason, e⟩ | e | e⟩ := decideCue_liveCue h.1 hc (.inr hw)
    · exact absurd e (hv reason)
    · exact ⟨d, hd, by rw [e]; nofun, fun k => absurd (e.symm.trans k) nofun⟩
    · exact ⟨d, hd, by rw [e]; nofun, fun k => absurd (e.symm.trans k) nofun⟩
  rw [acts, State.recheckCue]
  cases hv : s.verdict c with
  | withheld reason =>
    dsimp only
    split
    · exact ⟨_, failCue_liveCue h.1 hc .., nofun, nofun⟩
    · next hl =>
      refine ⟨_, liveCue_setRuntime_same hc _, ?_, fun _ => ⟨rfl, Nat.lt_of_not_le hl⟩⟩
      change c.runtime.state ≠ .waiting
      rw [hw]; nofun
  | completes => exact decided fun reason k => absurd (hv.symm.trans k) nofun
  | passes => exact decided fun reason k => absurd (hv.symm.trans k) nofun

/-- The recheck of another cue can at most bring the abandonment of this one. -/
theorem spares_recheck {i j : CueId} (h : j ≠ i) : Spares i (.recheck j) :=
  .inr (.inr fun _ hd k => h (k.1.trans hd))

/-- At a field close each WITHHELD cue not left out is rechecked once (R90, R91; log 13). -/
theorem recheckHeld_liveCue {s : State} (h : Calm s) {i : CueId} {c : Cue} (hc : s.liveCue i = some c)
    (hw : c.runtime.state = .withheld) (skip : List CueId) :
    ∃ d, (s.recheckHeld skip).liveCue i = some d
      ∧ (d.runtime.state = .withheld → i ∉ skip →
          d.runtime.withholdCount = c.runtime.withholdCount + 1 ∧ d.runtime.withholdCount < s.cues.limit)
      ∧ (d.runtime.state = .withheld → i ∈ skip → d.runtime.withholdCount = c.runtime.withholdCount) := by
  let p (c : Cue) : Bool := c.runtime.state == .withheld && !skip.contains c.fields.id
  have waits : c.runtime.state ≠ .waiting := by rw [hw]; nofun
  have others {l : List CueId} (hl : i ∉ l) : ∀ t ∈ l.map Task.recheck, Spares i t := fun t ht => by
    obtain ⟨j, hj, rfl⟩ := List.mem_map.mp ht
    exact spares_recheck fun e => hl (e ▸ hj)
  have ended {d : Cue} (hd : d.runtime.state = .abandoned) : d.runtime.state ≠ .withheld := by rw [hd]; nofun
  by_cases hs : i ∈ skip
  · have hi : i ∉ s.liveIds p := fun hm => by
      obtain ⟨d, hd, rfl⟩ := List.mem_map.mp hm
      have := (List.mem_filter.mp hd).2
      simp [p, hs] at this
    obtain ⟨d, hd, hR⟩ := carryOut_sparing h hc waits (others hi)
    refine ⟨d, hd, fun _ hn => absurd hs hn, fun hst _ => ?_⟩
    rcases hR with rfl | e
    · rfl
    · exact absurd hst (ended e)
  · have hi : i ∈ s.liveIds p := mem_liveIds hc (by simp [p, hw, (liveCue_mem hc).2, hs])
    obtain ⟨pre, post, e⟩ := List.append_of_mem hi
    have nodup := e ▸ liveIds_nodup h p
    have hpre : i ∉ pre := fun hm => (List.nodup_append.mp nodup).2.2 _ hm _ (by simp) rfl
    have hpost : i ∉ post := (List.nodup_cons.mp (List.nodup_append.mp nodup).2.1).1
    have split : s.recheckHeld skip
        = ((s.carryOut (pre.map .recheck)).carryOut [.recheck i]).carryOut (post.map .recheck) := by
      change s.carryOut ((s.liveIds p).map .recheck) = _
      rw [e, List.map_append, List.map_cons,
        show Task.recheck i :: post.map .recheck = [Task.recheck i] ++ post.map .recheck from rfl, carryOut_append h,
        carryOut_append (carryOut_calm h _)]
    rw [split]
    have calm := carryOut_calm h (pre.map .recheck)
    have calm' := carryOut_calm calm [.recheck i]
    obtain ⟨a, ha, hRa⟩ := carryOut_sparing h hc waits (others hpre)
    rcases hRa with rfl | hRa
    · obtain ⟨b, hb, hwb, hcount⟩ := runTask_recheck calm ha hw
      rw [(carryOut_cuesOnly ..).limit] at hcount
      rw [carryOut_single calm] at calm' ⊢
      obtain ⟨x, hx, hRx⟩ := carryOut_sparing (runTask_calm calm _) hb hwb fun t ht => .inl ((runTask_stays calm.1 _).brought t ht)
      have hwx : x.runtime.state ≠ .waiting := by
        rcases hRx with rfl | k
        · exact hwb
        · rw [k]; nofun
      obtain ⟨y, hy, hRy⟩ := carryOut_sparing calm' hx hwx (others hpost)
      refine ⟨y, hy, fun hst _ => ?_, fun _ hm => absurd hm hs⟩
      rcases hRy with rfl | k
      · rcases hRx with rfl | k
        · exact hcount hst
        · exact absurd hst (ended k)
      · exact absurd hst (ended k)
    · have gone : a.runtime.state = .done ∨ a.runtime.state = .failed ∨ a.runtime.state = .abandoned := .inr (.inr hRa)
      exact ⟨a, carryOut_ended calm' (carryOut_ended calm ha gone _) gone _, fun hst _ => absurd hst (ended hRa),
        fun hst _ => absurd hst (ended hRa)⟩

/-! ### CONFIRM_TIMEOUT and WITHHELD_TOO_LONG -/

theorem counted_timesOut {s : State} {c : Cue} {f : Field} (h : s.timesOut c f = true) :
    c.runtime.state = .fired
      ∧ (counted s c f).runtime.state = .failed ∧ (counted s c f).runtime.cause = .confirmTimeout := by
  simp only [State.timesOut, Bool.and_eq_true, beq_iff_eq] at h
  obtain ⟨hf, h⟩ := h
  refine ⟨hf, ?_⟩
  unfold counted
  cases hl : s.confirmLimit c.fields with
  | some limit =>
    simp only [hl, Bool.and_eq_true, decide_eq_true_eq] at h
    simp only [h.1, h.2, if_true]
    exact ⟨rfl, rfl⟩
  | none =>
    simp only [hl] at h
    simp only [h, if_true]
    exact ⟨rfl, rfl⟩

theorem runTask_tooLong {s : State} (h : Calm s) {i : CueId} {c : Cue} (hc : s.liveCue i = some c) (ht : s.tooLong c = true) :
    ∃ d, (s.runTask (.recheck i)).state.liveCue i = some d ∧ d.runtime.state = .failed ∧ d.runtime.cause = .withheldTooLong := by
  simp only [State.tooLong, Bool.and_eq_true, beq_iff_eq, decide_eq_true_eq] at ht
  obtain ⟨⟨hw, hv⟩, hl⟩ := ht
  have acts : s.runTask (.recheck i) = s.recheckCue c := onCue_acts hc (by simp [hw]) _
  obtain ⟨-, rfl⟩ := liveCue_mem hc
  cases hverdict : s.verdict c with
  | withheld reason =>
    rw [acts, State.recheckCue]
    simp only [hverdict, hl, if_true]
    exact ⟨_, failCue_liveCue h.1 hc .., rfl, rfl⟩
  | completes => rw [hverdict] at hv; cases hv
  | passes => rw [hverdict] at hv; cases hv

/-- Settles O38: the count and the recheck of one cue are its own task; no other task of the step acts on it but to abandon it. -/
theorem countedOutCueFails : Obligations.CountedOutCueFails := by
  intro s i c hc hp hb
  have h : Calm s := .of_bankSound hp hb
  refine ⟨fun ht => ?timeout, fun ht => ?tooLong, fun f hf => ?counts, fun skip hw => recheckHeld_liveCue h hc hw skip⟩
  case timeout =>
    obtain ⟨hf, hst, hcause⟩ := counted_timesOut ht
    have runs : exec (.confirmTimeout i) s = .next (s.carryOut [.countConfirm i s.fieldCount]) := by
      change Host.Outcome.next (if s.liveHas i (fun c => s.timesOut c s.fieldCount) then _ else s) = _
      rw [if_pos (by simpa only [State.liveHas, hc] using ht)]
    have fate := carryOut_single_finished h (runTask_countConfirm h hc hf s.fieldCount) (counted_finished s hf _)
    exact ⟨_, runs, by rw [fateOf_eq fate, hst, hcause], carryOut_cuesOnly ..⟩
  case tooLong =>
    obtain ⟨d, hd, hst, hcause⟩ := runTask_tooLong h hc ht
    have runs : exec (.withheldTooLong i) s = .next (s.carryOut [.recheck i]) := by
      change Host.Outcome.next (if s.liveHas i s.tooLong then _ else s) = _
      rw [if_pos (by simpa only [State.liveHas, hc] using ht)]
    exact ⟨_, runs, by rw [fateOf_eq (carryOut_single_finished h hd (by rw [hst]; rfl)), hst, hcause], carryOut_cuesOnly ..⟩
  case counts =>
    intro t count deadline
    have counts : t.liveCue i = some (counted s c f) := countConfirms_liveCue h hc hf f
    have byLimit (limit : Nat) (hl : s.confirmLimit c.fields = some limit) :
        (¬ c.runtime.inEffect f → t.liveCue i = some c)
          ∧ (c.runtime.inEffect f → count < limit →
            t.liveCue i = some { c with runtime := { c.runtime with confirmCount := count } })
          ∧ (c.runtime.inEffect f → limit ≤ count → t.fateOf i = some (.failed, .confirmTimeout)) := by
      have inField (he : c.runtime.inEffect f) :
          counted s c f = if limit ≤ count then timedOut (countedOnce c) else countedOnce c := by
        rw [counted, hl]
        exact if_pos ((judges_iff ..).mpr he)
      refine ⟨fun he => ?_, fun he hlt => ?_, fun he hle => ?_⟩
      · rw [counts]; simp [counted, hl, judges_iff, he]
      · rw [counts, inField he, if_neg (Nat.not_le.mpr hlt)]; rfl
      · rw [fateOf_eq counts, inField he, if_pos hle]; rfl
    have byDeadline (hk : c.fields.kind = .start) : counted s c f = if c.runtime.deadlinePassed f then timedOut c else c := by
      simp [counted, State.confirmLimit, hk]
    refine ⟨fun limit hk => byLimit limit ?_, fun hk hd => ?_, fun hk hd => ?_⟩
    · rcases hk with ⟨hk, rfl⟩ | ⟨hk, rfl⟩ | ⟨hk | hk, rfl⟩ <;> simp [State.confirmLimit, hk]
    · rw [counts, byDeadline hk, if_neg (mt (deadlinePassed_iff ..).mp hd)]
    · rw [fateOf_eq counts, byDeadline hk, if_pos ((deadlinePassed_iff ..).mpr hd)]; rfl

end Sys2Proof.Proofs.CloseCues
end

section
/-! The FOLLOW examinations: one that finds its cue due, and their order at a field close (R56, R74, R90). -/

namespace Sys2Proof.Proofs.Following

open Sys2Proof Sys2Proof.Machine Sys2Proof.Proofs.Tasks Sys2Proof.Proofs.Fates Sys2Proof.Proofs.WholeBank
  Sys2Proof.Proofs.Decisions Sys2Proof.Proofs.Abandoning Sys2Proof.Proofs.CloseCues

/-! ### FOLLOW_DUE -/

/-- In a bank in order an ARMED cue is its chain's head (R72). -/
theorem headOf_armed {s : State} (ho : s.cues.inOrder = true) {c : Cue} (hc : c ∈ s.cues.live) (ha : c.runtime.state = .armed) :
    headOf s.cues.live c.fields.chain = some c := by
  simp only [CueEngine.inOrder, Bool.and_eq_true] at ho
  have headed := of_decide_eq_true ho.1
  obtain ⟨front, back, e⟩ := List.append_of_mem hc
  rw [e] at headed ⊢
  exact headOf_split (by rw [ha]; rfl) fun a ha' hchain =>
    (List.pairwise_append.mp headed).2.2 a ha' c (by simp) hchain (.inl ha)

/-- A cue that its decision withholds stays WITHHELD: it is the head, so that its chain's eligibility brings nothing (R72, R86). -/
theorem withheld_stays {s : State} (h : Calm s) {c : Cue} (hh : headOf s.cues.live c.fields.chain = some c)
    (ha : c.runtime.state = .armed) (reason : WithholdReason) :
    (s.withholdCue c reason).state.carryOut (s.withholdCue c reason).tasks = (s.withholdCue c reason).state := by
  let r : CueRuntime := { c.runtime with state := .withheld, reason := reason, withholdCount := 0 }
  let u := (s.setRuntime c.fields.id r).raise (if c.fields.kind == .changeover then srcChangeoverWithheld else srcCueWithheld)
    (s.cueDetail c reason.asCause)
  have state : (s.withholdCue c reason).state = u := withholdCue_entered ha reason
  have cues : u.cues = (s.setRuntime c.fields.id r).cues := (raise_alarmsOnly ..).cues
  have runs : s.withholdCue c reason = u.settleChange c r := by
    have hne : (c.runtime.state == CueState.withheld) = false := by rw [ha]; rfl
    simp only [State.withholdCue, hne]
    rfl
  have tasks : (s.withholdCue c reason).tasks = [.eligible c.fields.chain] := by
    rw [runs, settleChange_tasks (by rw [cues]; exact h.1)]
    rfl
  have head : headOf u.cues.live c.fields.chain = some { c with runtime := r } := by
    rw [cues]
    exact headOf_putRuntime rfl h.2 hh
  rw [tasks, state]
  exact carryOut_quiet (runTask_eligible_other head nofun)

/-- A head found due goes to its decision with its due field recorded, and keeps it (R51, R55). -/
theorem dueCue_spec {s : State} (h : Calm s) {c : Cue} (hc : s.liveCue c.fields.id = some c)
    (hh : headOf s.cues.live c.fields.chain = some c) (ha : c.runtime.state = .armed) (due : Field) {t : Task}
    (ht : s.runTask t = s.dueCue c due) :
    ∃ d, (s.carryOut [t]).liveCue c.fields.id = some d ∧ d.runtime.dueField = some due
      ∧ (d.runtime.state = .withheld ∨ d.runtime.state = .fired ∨ d.runtime.state = .done) := by
  let c' : Cue := { c with runtime := { c.runtime with dueField := some due } }
  let u := s.setRuntime c.fields.id c'.runtime
  have calm : Calm u := SameLists.calm (s := s) ⟨putRuntime_fields .., rfl, rfl, rfl⟩ h
  have hcu : u.liveCue c'.fields.id = some c' := liveCue_setRuntime_same hc _
  have hhu : headOf u.cues.live c'.fields.chain = some c' := headOf_putRuntime (by rw [ha]; rfl) h.2 hh
  have runs : s.runTask t = u.decideCue c' := ht
  obtain ⟨d, hd, hdue, hst⟩ := decideCue_liveCue calm.1 hcu (.inl ha)
  rw [← runs] at hd
  rcases hst with ⟨hw, reason, hv⟩ | hst
  · refine ⟨d, ?_, hdue, .inl hw⟩
    rw [carryOut_single h]
    rw [runs, decideCue_withheld hv] at hd ⊢
    rw [withheld_stays calm hhu ha reason]
    exact hd
  · exact ⟨d, carryOut_single_finished h hd (by rcases hst with e | e <;> rw [e] <;> rfl), hdue, .inr hst⟩

/-- The follow examination of a cue whose offset is reached: MISSED beyond the late limit, else its decision (R56). -/
theorem follow_reached {s : State} {c : Cue} (hc : s.liveCue c.fields.id = some c) (ha : c.runtime.state = .armed)
    (hr : c.fields.release = .follow) {fired : Field} (hf : s.followedField c = some fired) {f : Field}
    (ho : (c.fields.offset : Int) ≤ ((f - fired).toNat : Int)) :
    s.runTask (.follow c.fields.id f) =
      if (s.cues.limit : Int) < fieldDiff f (moveField fired c.fields.offset) then
        s.failCue c { c.runtime with dueField := some (moveField fired c.fields.offset) } .missed
      else s.dueCue c (moveField fired c.fields.offset) := by
  refine (onCue_acts hc (by simp [ha]) _).trans ?_
  simp only [hr, beq_self_eq_true, if_true, State.followCue, hf, ho]

theorem exec_followDue {s : State} {c : Cue} (hc : s.liveCue c.fields.id = some c) (h : s.followReached c s.fieldCount = true) :
    exec (.followDue c.fields.id) s = .next (s.carryOut [.follow c.fields.id s.fieldCount]) := by
  change Host.Outcome.next (if s.liveHas c.fields.id (fun c => s.followReached c s.fieldCount) then _ else s) = _
  rw [if_pos (by simpa only [State.liveHas, hc] using h)]

theorem followDue_spec {s : State} (h : Calm s) (hord : s.cues.inOrder = true) {c : Cue} (hc : s.liveCue c.fields.id = some c)
    (ha : c.runtime.state = .armed) (hr : c.fields.release = .follow) {fired : Field} (hf : s.followedField c = some fired)
    (ho : (c.fields.offset : Int) ≤ ((s.fieldCount - fired).toNat : Int)) :
    let due := moveField fired c.fields.offset
    ∃ d, (s.carryOut [.follow c.fields.id s.fieldCount]).liveCue c.fields.id = some d ∧ d.runtime.dueField = some due
      ∧ ((s.cues.limit : Int) < fieldDiff s.fieldCount due → d.runtime.state = .failed ∧ d.runtime.cause = .missed)
      ∧ (fieldDiff s.fieldCount due ≤ (s.cues.limit : Int) →
          d.runtime.state = .withheld ∨ d.runtime.state = .fired ∨ d.runtime.state = .done) := by
  intro due
  have runs := follow_reached hc ha hr hf ho
  by_cases hl : (s.cues.limit : Int) < fieldDiff s.fieldCount due
  · rw [if_pos hl] at runs
    have failed := failCue_liveCue h.1 hc { c.runtime with dueField := some due } .missed
    rw [← runs] at failed
    exact ⟨_, carryOut_single_finished h failed rfl, rfl, fun _ => ⟨rfl, rfl⟩, fun k => absurd hl (Int.not_lt.mpr k)⟩
  · rw [if_neg hl] at runs
    obtain ⟨d, hd, hdue, hst⟩ := dueCue_spec h hc (headOf_armed hord (liveCue_mem hc).1 ha) ha due runs
    exact ⟨d, hd, hdue, fun k => absurd k hl, fun _ => hst⟩

/-! ### The examinations of a field close -/

/-- An ARMED cue of release FOLLOW. -/
def Follows (c : Cue) : Prop := c.runtime.state = .armed ∧ c.fields.release = .follow

/-- The state after the examination of some cues in turn. -/
def examined (f : Field) (u : State) (ids : List CueId) : State := ids.foldl (fun v id => v.carryOut [.follow id f]) u

theorem nextFollower_none {u : State} {seen : List CueId} (h : u.nextFollower seen = none) :
    ∀ c ∈ u.cues.live, Follows c → c.fields.id ∈ seen := by
  intro c hc hf
  have := List.find?_eq_none.mp h c hc
  by_contra hn
  simp [hf.1, hf.2, hn] at this

/-- The next to be examined is the first ARMED FOLLOW cue in list order not examined yet (R56). -/
theorem nextFollower_some {u : State} {seen : List CueId} {c : Cue} (h : u.nextFollower seen = some c) :
    ∃ front back, u.cues.live = front ++ c :: back ∧ Follows c ∧ c.fields.id ∉ seen
      ∧ ∀ b ∈ front, Follows b → b.fields.id ∈ seen := by
  obtain ⟨hp, front, back, e, hf⟩ := List.find?_eq_some_iff_append.mp h
  simp only [Bool.and_eq_true, beq_iff_eq, Bool.not_eq_true', List.contains_eq_mem, decide_eq_false_iff_not] at hp
  refine ⟨front, back, e, hp.1, hp.2, fun b hb hfb => ?_⟩
  have := hf b hb
  by_contra hn
  simp [hfb.1, hfb.2, hn] at this

/-- What the walk over the ARMED FOLLOW cues does from a state in which some have been examined. -/
structure Walk (f : Field) (u : State) (seen ids : List CueId) (t : State) : Prop where
  nodup : (seen ++ ids).Nodup
  runs : t = examined f u ids
  complete : ∀ c ∈ t.cues.live, Follows c → c.fields.id ∈ seen ++ ids
  first : ∀ done id rest, ids = done ++ id :: rest →
    ∃ front c back, (examined f u done).cues.live = front ++ c :: back ∧ c.fields.id = id ∧ Follows c ∧ id ∉ seen ++ done
      ∧ ∀ b ∈ front, Follows b → b.fields.id ∈ seen ++ done

theorem followWalk_walk (f : Field) : ∀ (fuel : Nat) (u : State) (seen marked : List CueId), Calm u → seen.Nodup →
    (∀ i ∈ seen, i ∈ u.cues.live.map (fun c => c.fields.id)) → (∀ i, i ∈ marked ↔ i ∈ seen) →
    u.cues.live.length ≤ fuel + seen.length → ∃ ids, Walk f u seen ids (followWalk f fuel u marked)
  | 0, u, seen, marked, hu, hn, hs, _, hl => by
    refine ⟨[], ⟨by simpa using hn, rfl, fun c hc _ => ?_, fun done id rest e => absurd e (by simp)⟩⟩
    have perm := (List.subperm_of_subset hn hs).perm_of_length_le (by simpa using hl)
    simpa using perm.mem_iff.mpr (List.mem_map_of_mem hc)
  | fuel + 1, u, seen, marked, hu, hn, hs, hm, hl => by
    unfold followWalk
    cases hnext : u.nextFollower marked with
    | none =>
      exact ⟨[], ⟨by simpa using hn, rfl, fun c hc hf => by simpa using (hm _).mp (nextFollower_none hnext c hc hf),
        fun done id rest e => absurd e (by simp)⟩⟩
    | some c =>
      obtain ⟨front, back, e, hf, hc, hfront⟩ := nextFollower_some hnext
      have lists := carryOut_lists hu.1 [.follow c.fields.id f]
      have ids : (u.carryOut [.follow c.fields.id f]).cues.live.map (fun c => c.fields.id)
          = u.cues.live.map (fun c => c.fields.id) := by
        rw [ids_of_fields, lists.fields, ← ids_of_fields]
      have hcseen : c.fields.id ∉ seen := fun k => hc ((hm _).mpr k)
      have swap : (u.cues.swapPending && !(u.carryOut [.follow c.fields.id f]).cues.swapPending) = false := by simp [hu.1]
      dsimp only
      rw [swap]
      obtain ⟨rest, w⟩ := followWalk_walk f fuel (u.carryOut [.follow c.fields.id f]) (seen ++ [c.fields.id]) (c.fields.id :: marked)
        (lists.calm hu) (List.nodup_append.mpr ⟨hn, by simp, fun a ha b hb k => hcseen (by simp_all)⟩)
        (fun i hi => by
          rw [ids]
          rcases List.mem_append.mp hi with hi | hi
          · exact hs i hi
          · rw [List.mem_singleton.mp hi, e]; simp)
        (fun i => by simp [hm, or_comm])
        (by
          have := congrArg List.length ids
          simp only [List.length_map] at this
          simp only [List.length_append, List.length_cons, List.length_nil]
          omega)
      refine ⟨c.fields.id :: rest, ⟨by simpa using w.nodup, w.runs, by simpa using w.complete, fun done id tail et => ?_⟩⟩
      cases done with
      | nil =>
        obtain rfl : c.fields.id = id := (List.cons.inj et).1
        exact ⟨front, c, back, e, rfl, hf, by simpa using hcseen, fun b hb hfb => by simpa using (hm _).mp (hfront b hb hfb)⟩
      | cons x done =>
        obtain ⟨rfl, etail⟩ := List.cons.inj et
        simpa [examined] using w.first done id tail etail

/-- Settles O39: a due FOLLOW cue is its chain's head and keeps its due field; the walk examines every ARMED FOLLOW cue once. -/
theorem followerIsDueAfterItsOffset : Obligations.FollowerIsDueAfterItsOffset := by
  refine ⟨fun s i c fired hc hp hb hord ha hr hf ho => ?due, fun s f hp hb => ⟨fun _ => rfl, ?walk⟩⟩
  case due =>
    obtain ⟨-, rfl⟩ := liveCue_mem hc
    obtain ⟨d, hd, hdue, hmissed, hdecided⟩ := followDue_spec (.of_bankSound hp hb) hord hc ha hr hf ho
    refine ⟨_, d, exec_followDue hc ?_, hd, hdue, hmissed, hdecided, carryOut_cuesOnly ..⟩
    simp only [State.followReached, ha, hr, hf, beq_self_eq_true, Bool.and_self, Bool.true_and, decide_eq_true_eq]
    exact ho
  case walk =>
    obtain ⟨ids, w⟩ := followWalk_walk f (s.cues.live.length + s.cues.preset.length) s [] [] (.of_bankSound hp hb) .nil (by simp)
      (by simp) (by simp)
    exact ⟨ids, w.nodup, w.runs, w.complete, w.first⟩

end Sys2Proof.Proofs.Following
end

section
/-! The group logic: what a raising records, the air fault, the air holder and its tenure, SET GROUP (Chapter 7, R160). -/

namespace Sys2Proof.Proofs.Groups

open Sys2Proof Sys2Proof.Machine Sys2Proof.Proofs.Basics

/-! ### What a raising records (R160, R164) -/

/-- A source stands with this record: pending with it, or in service with its mark and detail. -/
def Recorded (a : AlarmUnit) (src : Source) (p : PendingRecord) : Prop :=
  a.pending[src] = some p ∨ ∃ e ∈ a.inService, e.source = src ∧ e.again = p.again ∧ e.detail = p.detail

theorem selectAndJudge_recorded {s : State} {src : Source} {p : PendingRecord} (h : Recorded s.alarms src p) :
    Recorded s.selectAndJudge.alarms src p := by
  have : Recorded s.select.alarms src p := by
    rcases select_spec s with e | ⟨x, q, -, hq, -, e⟩ <;> rw [e]
    · exact h
    · have unit : (s.enterService x q).alarms.inService
          = { source := x, level := s.alarms.level x, again := q.again, detail := q.detail } :: s.alarms.inService := rfl
      have pending : (s.enterService x q).alarms.pending = s.alarms.pending.set x none := rfl
      rcases h with h | ⟨e, he, hs⟩
      · by_cases hx : x = src
        · subst hx
          obtain rfl : q = p := Option.some.inj (hq.symm.trans h)
          exact .inr ⟨_, by rw [unit]; exact List.mem_cons_self, rfl, rfl, rfl⟩
        · have hv : (x : Nat) ≠ src := fun e => hx (Fin.ext e)
          exact .inl (by rw [pending]; simpa [hv] using h)
      · exact .inr ⟨e, by rw [unit]; exact List.mem_cons_of_mem _ he, hs⟩
  exact this

/-- The pending record that a raising leaves (R160). -/
def raisedRecord (a : AlarmUnit) (src : Source) (d : Detail) : PendingRecord :=
  match a.pending[src] with
  | some p => { p with again := true }
  | none => { detail := d }

theorem raiseOnce_eq (s : State) (src : Source) (d : Detail) : ∃ u : State, s.raiseOnce src d = u.selectAndJudge
    ∧ u.alarms = { s.alarms with pending := s.alarms.pending.set src (some (raisedRecord s.alarms src d)) } := by
  unfold State.raiseOnce raisedRecord
  cases s.alarms.pending[src] with
  | some p => exact ⟨_, rfl, rfl⟩
  | none =>
    dsimp only
    split
    · exact ⟨_, rfl, Handling.storeSnapshot_alarms ..⟩
    · exact ⟨_, rfl, rfl⟩

theorem raiseOnce_recorded (s : State) (src : Source) (d : Detail) :
    Recorded (s.raiseOnce src d).alarms src (raisedRecord s.alarms src d) := by
  obtain ⟨u, e, hu⟩ := raiseOnce_eq s src d
  rw [e]
  exact selectAndJudge_recorded (.inl (by rw [hu]; simp))

theorem raiseOnce_recorded_other {s : State} {src x : Source} {p : PendingRecord} (h : Recorded s.alarms x p) (hne : src ≠ x)
    (d : Detail) : Recorded (s.raiseOnce src d).alarms x p := by
  obtain ⟨u, e, hu⟩ := raiseOnce_eq s src d
  have hv : (src : Nat) ≠ x := fun e => hne (Fin.ext e)
  rw [e]
  refine selectAndJudge_recorded ?_
  rw [hu]
  rcases h with h | h
  · exact .inl (by simpa [hv] using h)
  · exact .inr h

/-- A source raised stands with its record: its detail when it was not pending, else marked as raised again (R160). -/
theorem raise_recorded (s : State) {src : Source} (hne : srcAlmostFull ≠ src) (d : Detail) :
    Recorded (s.raise src d).alarms src (raisedRecord s.alarms src d) := by
  unfold State.raise
  dsimp only
  split
  · exact raiseOnce_recorded_other (raiseOnce_recorded s src d) hne _
  · exact raiseOnce_recorded s src d

theorem raisedRecord_new {a : AlarmUnit} {src : Source} (h : a.isPending src = false) (d : Detail) :
    raisedRecord a src d = { detail := d } := by
  have : a.pending[src] = none := by simpa [AlarmUnit.isPending] using h
  simp only [raisedRecord, this]

theorem raisedRecord_again {a : AlarmUnit} {src : Source} (h : a.isPending src = true) (d : Detail) :
    (raisedRecord a src d).again = true := by
  obtain ⟨p, hp⟩ := Option.isSome_iff_exists.mp (show a.pending[src].isSome = true from h)
  simp only [raisedRecord, hp]

/-- What a raising tells of a source that was not pending (R160). -/
theorem raise_tells_new (s : State) {src : Source} (hne : srcAlmostFull ≠ src) (h : s.alarms.isPending src = false) (d : Detail) :
    (∃ p, (s.raise src d).alarms.pending[src] = some p ∧ p.again = false ∧ p.detail = d)
      ∨ ∃ e ∈ (s.raise src d).alarms.inService, e.source = src ∧ e.again = false ∧ e.detail = d := by
  have recorded := raise_recorded s hne d
  rw [raisedRecord_new h] at recorded
  rcases recorded with hp | ⟨e, he, hs, ha, hd⟩
  · exact .inl ⟨_, hp, rfl, rfl⟩
  · exact .inr ⟨e, he, hs, ha, hd⟩

/-- What a raising tells of a source pending already (R160). -/
theorem raise_tells_again (s : State) {src : Source} (hne : srcAlmostFull ≠ src) (h : s.alarms.isPending src = true) (d : Detail) :
    (∃ p, (s.raise src d).alarms.pending[src] = some p ∧ p.again = true)
      ∨ ∃ e ∈ (s.raise src d).alarms.inService, e.source = src ∧ e.again = true := by
  have again := raisedRecord_again h d
  rcases raise_recorded s hne d with hp | ⟨e, he, hs, ha, -⟩
  · exact .inl ⟨_, hp, again⟩
  · exact .inr ⟨e, he, hs, ha.trans again⟩

/-! ### The air fault (R135, R140) -/

/-- One of the four causes of an air fault. -/
def FourCause (c : Cause) : Prop := c = .faulted ∨ c = .speed ∨ c = .silent ∨ c = .runOut

theorem has_add {c : Cause} (h : FourCause c) (a : AirCauses) {x : Cause} (hx : FourCause x) :
    (a.add c).has x = (x == c || a.has x) := by
  rcases h with rfl | rfl | rfl | rfl <;> rcases hx with rfl | rfl | rfl | rfl <;> simp [AirCauses.add, AirCauses.has]

theorem add_of_has {c : Cause} {a : AirCauses} (h : FourCause c) (ha : a.has c = true) : a.add c = a := by
  obtain ⟨f, s, t, r⟩ := a
  rcases h with rfl | rfl | rfl | rfl
  all_goals
    simp only [AirCauses.has] at ha
    subst ha
    rfl

theorem airFault_again {s : State} {g : GroupId} {c : Cause} (h : (s.group g).causes.has c = true) (n : ChainNo) :
    s.airFault g n c = s := by
  simp [State.airFault, h]

theorem airFault_new {s : State} {g : GroupId} {c : Cause} (h : (s.group g).causes.has c = false) (n : ChainNo) :
    s.airFault g n c = (s.setGroup g { s.group g with causes := (s.group g).causes.add c }).raise srcAirFault
      { chain := some n, group := some g, cause := c, field := s.fieldCount } := by
  simp [State.airFault, h]

/-- Besides alarms and snapshots, only the causes of a group may differ, and they are these. -/
def CausesOnly (g : GroupId) (a : AirCauses) (s t : State) : Prop :=
  AlarmsOnly (s.setGroup g { s.group g with causes := a }) t

theorem CausesOnly.causes {g : GroupId} {a : AirCauses} {s t : State} (h : CausesOnly g a s t) : (t.group g).causes = a := by
  rw [h.group, State.group_setGroup_self]

theorem setGroup_same (s : State) (g : GroupId) : s.setGroup g (s.group g) = s := by cases g <;> rfl

theorem setGroup_setGroup (s : State) (g : GroupId) (r q : GroupRecord) : (s.setGroup g r).setGroup g q = s.setGroup g q := by
  cases g <;> rfl

theorem CausesOnly.refl (g : GroupId) (s : State) : CausesOnly g (s.group g).causes s s := by
  unfold CausesOnly
  rw [show ({ s.group g with causes := (s.group g).causes } : GroupRecord) = s.group g from rfl, setGroup_same]
  exact .refl s

theorem AlarmsOnly_setGroup {s t : State} (h : AlarmsOnly s t) (g : GroupId) (r : GroupRecord) :
    AlarmsOnly (s.setGroup g r) (t.setGroup g r) := by
  obtain ⟨_, _, _, _, _, _, rfl⟩ := h.elim
  cases g <;> rfl

theorem CausesOnly.trans {g : GroupId} {a b : AirCauses} {s t u : State} (h : CausesOnly g a s t) (k : CausesOnly g b t u) :
    CausesOnly g b s u := by
  refine AlarmsOnly.trans ?_ k
  have hg : t.group g = { s.group g with causes := a } := by rw [h.group, State.group_setGroup_self]
  have := AlarmsOnly_setGroup h g { s.group g with causes := b }
  rw [setGroup_setGroup] at this
  rw [hg]
  exact this

theorem airFault_causesOnly {c : Cause} (hc : FourCause c) (s : State) (g : GroupId) (n : ChainNo) :
    CausesOnly g ((s.group g).causes.add c) s (s.airFault g n c) := by
  cases h : (s.group g).causes.has c with
  | true => rw [airFault_again h, add_of_has hc h]; exact .refl g s
  | false => rw [airFault_new h]; exact raise_alarmsOnly ..

theorem airFault_keeps_standing (s : State) (g : GroupId) (n : ChainNo) (c : Cause) {x : Source} (h : s.alarmStands x = true) :
    (s.airFault g n c).alarmStands x = true := by
  unfold State.airFault
  split
  · exact h
  · refine raise_keeps_standing _ _ _ _ ?_
    cases g <;> exact h

/-! ### The judging of a tenure (R136) -/

/-- An air fault of a cause, if it is found. -/
def faultIf (s : State) (g : GroupId) (n : ChainNo) (b : Bool) (c : Cause) : State := if b then s.airFault g n c else s

/-- A cause added, if it is found. -/
def addIf (a : AirCauses) (b : Bool) (c : Cause) : AirCauses := if b then a.add c else a

theorem faultIf_causesOnly {c : Cause} (hc : FourCause c) (s : State) (g : GroupId) (n : ChainNo) (b : Bool) :
    CausesOnly g (addIf (s.group g).causes b c) s (faultIf s g n b c) := by
  cases b
  · exact .refl g s
  · exact airFault_causesOnly hc s g n

/-- AIR FAULT stands as soon as a cause has been found. -/
def Told (a : AirCauses) (s : State) : Prop :=
  (∃ c, FourCause c ∧ a.has c = true) → s.alarmStands srcAirFault = true

/-- The causes found since a state, with what is told of them. -/
def Judged (g : GroupId) (a : AirCauses) (s t : State) : Prop := CausesOnly g a s t ∧ Told a t

theorem Judged.faultIf {g : GroupId} {a : AirCauses} {s t : State} (h : Judged g a s t) (n : ChainNo) (b : Bool) {c : Cause}
    (hc : FourCause c) : Judged g (addIf a b c) s (faultIf t g n b c) := by
  obtain ⟨only, told⟩ := h
  have next := only.trans (faultIf_causesOnly hc t g n b)
  rw [only.causes] at next
  refine ⟨next, ?_⟩
  cases b
  · exact told
  · intro _
    change (t.airFault g n c).alarmStands srcAirFault = true
    cases hh : (t.group g).causes.has c with
    | true =>
      rw [airFault_again hh]
      exact told ⟨c, hc, only.causes ▸ hh⟩
    | false =>
      rw [airFault_new hh]
      exact raise_stands ..

theorem CausesOnly.chain {g : GroupId} {a : AirCauses} {s t : State} (h : CausesOnly g a s t) (n : ChainNo) :
    t.chain n = s.chain n := by
  rw [AlarmsOnly.chain h]
  cases g <;> rfl

theorem CausesOnly.cues {g : GroupId} {a : AirCauses} {s t : State} (h : CausesOnly g a s t) : t.cues = s.cues := by
  rw [AlarmsOnly.cues h]
  cases g <;> rfl

theorem CausesOnly.fieldCount {g : GroupId} {a : AirCauses} {s t : State} (h : CausesOnly g a s t) :
    t.fieldCount = s.fieldCount := by
  rw [AlarmsOnly.fieldCount h]
  cases g <;> rfl

theorem four_faulted : FourCause .faulted := .inl rfl
theorem four_speed : FourCause .speed := .inr (.inl rfl)
theorem four_silent : FourCause .silent := .inr (.inr (.inl rfl))
theorem four_runOut : FourCause .runOut := .inr (.inr (.inr rfl))

theorem judgeAir_eq (s : State) (g : GroupId) (n : ChainNo) :
    s.judgeAir g n = faultIf (faultIf s g n (s.speedFault n) .speed) g n (s.runOutFault n) .runOut := by
  have same := (faultIf_causesOnly four_speed s g n (s.speedFault n)).chain n
  have runOut : (faultIf s g n (s.speedFault n) .speed).runOutFault n = s.runOutFault n := by
    simp only [State.runOutFault, same]
  rw [← runOut]
  rfl

/-- The update of the chain is of the field count in force. -/
def freshUpdate (s : State) (n : ChainNo) : Bool := s.cues.updateField[n] == some s.fieldCount

/-- A tenure's beginning judges FAULTED, SILENT and, on a fresh update, SPEED and RUN-OUT, all on the chain's record (R136). -/
theorem beginTenure_eq (s : State) (g : GroupId) (n : ChainNo) : s.beginTenure g n =
    faultIf (faultIf (faultIf (faultIf s g n ((s.chain n).state == .faulted) .faulted) g n (s.chain n).stale .silent)
      g n (freshUpdate s n && s.speedFault n) .speed) g n (freshUpdate s n && s.runOutFault n) .runOut := by
  unfold State.beginTenure
  change (let s1 := faultIf s g n ((s.chain n).state == .faulted) .faulted
    let s2 := faultIf s1 g n (s1.chain n).stale .silent
    if freshUpdate s2 n then s2.judgeAir g n else s2) = _
  dsimp only
  have h1 := faultIf_causesOnly four_faulted s g n ((s.chain n).state == .faulted)
  have h2 := h1.trans (faultIf_causesOnly four_silent _ g n (s.chain n).stale)
  rw [h1.chain]
  generalize faultIf (faultIf s g n ((s.chain n).state == .faulted) .faulted) g n (s.chain n).stale .silent = t at h2 ⊢
  have fresh : freshUpdate t n = freshUpdate s n := by simp only [freshUpdate, h2.cues, h2.fieldCount]
  have speed : t.speedFault n = s.speedFault n := by simp only [State.speedFault, h2.chain]
  have runOut : t.runOutFault n = s.runOutFault n := by simp only [State.runOutFault, h2.chain]
  rw [fresh]
  cases freshUpdate s n
  · rfl
  · rw [if_pos rfl, judgeAir_eq, speed, runOut]
    rfl

/-- The causes that a tenure begins with. -/
def tenureCauses (s : State) (n : ChainNo) : AirCauses where
  faulted := (s.chain n).state == .faulted
  silent := (s.chain n).stale
  speed := freshUpdate s n && s.speedFault n
  runOut := freshUpdate s n && s.runOutFault n

theorem addIf_all (a b c d : Bool) :
    addIf (addIf (addIf (addIf {} a .faulted) b .silent) c .speed) d .runOut
      = { faulted := a, silent := b, speed := c, runOut := d } := by
  cases a <;> cases b <;> cases c <;> cases d <;> rfl

theorem beginTenure_judged {s : State} {g : GroupId} (h : (s.group g).causes = {}) (n : ChainNo) :
    Judged g (tenureCauses s n) s (s.beginTenure g n) := by
  have none : Judged g {} s s := by
    refine ⟨h ▸ CausesOnly.refl g s, ?_⟩
    rintro ⟨c, hc, hh⟩
    rcases hc with rfl | rfl | rfl | rfl <;> cases hh
  have all := (((none.faultIf n ((s.chain n).state == .faulted) four_faulted).faultIf n (s.chain n).stale four_silent).faultIf n
    (freshUpdate s n && s.speedFault n) four_speed).faultIf n (freshUpdate s n && s.runOutFault n) four_runOut
  rw [addIf_all, ← beginTenure_eq] at all
  exact all

/-! ### The air holder (R128, R135, R136) -/

theorem derivedHolder_eq (s : State) (g : GroupId) :
    s.derivedHolder g = ((s.group g).shown).filter (fun n => (s.chain n).state != .absent) := by
  unfold State.derivedHolder
  cases (s.group g).shown with
  | none => rfl
  | some n => cases h : (s.chain n).state <;> simp [Option.filter, h]

theorem deriveHolder_same {s : State} {g : GroupId} (h : s.derivedHolder g = (s.group g).holder) : s.deriveHolder g = s := by
  simp [State.deriveHolder, h]

theorem deriveHolder_lost {s : State} {g : GroupId} (h : s.derivedHolder g = none) (hne : (s.group g).holder ≠ none) :
    s.deriveHolder g = s.setGroup g { s.group g with holder := none, causes := {} } := by
  simp [State.deriveHolder, h, hne.symm]

/-- The group with a new air holder and no cause found yet. -/
def newTenure (s : State) (g : GroupId) (n : ChainNo) : State := s.setGroup g { s.group g with holder := some n, causes := {} }

theorem deriveHolder_new {s : State} {g : GroupId} {n : ChainNo} (h : s.derivedHolder g = some n)
    (hne : (s.group g).holder ≠ some n) : s.deriveHolder g = (newTenure s g n).beginTenure g n := by
  simp [State.deriveHolder, h, hne.symm, newTenure]

theorem newTenure_causes (s : State) (g : GroupId) (n m : ChainNo) : tenureCauses (newTenure s g n) m = tenureCauses s m := by
  cases g <;> rfl

theorem deriveHolder_new_judged {s : State} {g : GroupId} {n : ChainNo} (h : s.derivedHolder g = some n)
    (hne : (s.group g).holder ≠ some n) :
    AlarmsOnly (s.setGroup g { s.group g with holder := some n, causes := tenureCauses s n }) (s.deriveHolder g)
      ∧ ((s.deriveHolder g).group g).causes = tenureCauses s n ∧ Told (tenureCauses s n) (s.deriveHolder g) := by
  have judged := beginTenure_judged (s := newTenure s g n) (g := g) (by simp [newTenure]) n
  rw [newTenure_causes, ← deriveHolder_new h hne] at judged
  refine ⟨?_, judged.1.causes, judged.2⟩
  have frame := judged.1
  rw [CausesOnly, newTenure, setGroup_setGroup, State.group_setGroup_self] at frame
  exact frame

theorem isRun_iff (m : Motion) : m.isRun = true ↔ ∃ e, m = .run e := by cases m <;> simp [Motion.isRun]

theorem speedFault_iff (s : State) (n : ChainNo) : s.speedFault n = true ↔
    (s.chain n).reported.motor ≠ .atSpeed ∧ ∃ e, (s.chain n).commanded.motion = .run e := by
  simp [State.speedFault, isRun_iff]

theorem runOutFault_iff (s : State) (n : ChainNo) : s.runOutFault n = true ↔
    (s.chain n).config.runOut ≠ 0 ∧ (s.chain n).config.runOut.toNat ≤ (s.chain n).reported.frame.toNat := by
  unfold State.runOutFault
  dsimp only
  rw [Bool.and_eq_true, bne_iff_ne, decide_eq_true_iff]

theorem freshUpdate_iff (s : State) (n : ChainNo) :
    freshUpdate s n = true ↔ s.cues.updateField[n] = some s.round.fieldCount := by
  rw [freshUpdate, beq_iff_eq]
  rfl

/-- Settles O41: a cause in the set raises nothing; a changed holder begins with the causes that its record shows. -/
theorem airFaultIsRaisedOncePerTenure : Obligations.AirFaultIsRaisedOncePerTenure := by
  intro s g four
  refine ⟨fun n c hc hh => airFault_again hh n, fun n m c hc hh => ?new, fun h => ?same, fun h hne => ?lost, fun n h hne => ?begins⟩
  case new =>
    intro t detail
    have only : CausesOnly g ((s.group g).causes.add c) s t := airFault_causesOnly hc s g n
    have ht : t = _ := airFault_new hh n
    refine ⟨by rw [ht]; exact raise_stands .., fun other ho => ?_, ?_, fun hp => ?_, ?_⟩
    · rw [only.causes, has_add hc _ ho]
    · rw [only.causes]; exact only
    · rw [ht]
      exact raise_tells_new _ (by decide) (by cases g <;> exact hp) _
    · refine airFault_again ?_ m
      rw [only.causes, has_add hc _ hc]
      simp
  case same => exact deriveHolder_same ((derivedHolder_eq s g).trans h)
  case lost => exact deriveHolder_lost ((derivedHolder_eq s g).trans h) hne
  case begins =>
    obtain ⟨frame, causes, told⟩ := deriveHolder_new_judged ((derivedHolder_eq s g).trans h) hne
    intro r fresh
    rw [causes]
    refine ⟨frame, ?_, ?_, ?_, ?_, fun c hc hh => told ⟨c, hc, hh⟩⟩
    · simp [AirCauses.has, tenureCauses, r]
    · simp [AirCauses.has, tenureCauses, r]
    · simp only [AirCauses.has, tenureCauses, Bool.and_eq_true, freshUpdate_iff, speedFault_iff]
      rfl
    · simp only [AirCauses.has, tenureCauses, Bool.and_eq_true, freshUpdate_iff, runOutFault_iff]
      rfl

/-- After a derivation the holder is what R128 derives, and nothing else of a record but the causes has changed. -/
theorem deriveHolder_spec (s : State) (g : GroupId) : ∃ a, AlarmsOnly (s.setGroup g { s.group g with
    holder := ((s.group g).shown).filter (fun n => (s.chain n).state != .absent), causes := a }) (s.deriveHolder g) := by
  rw [← derivedHolder_eq]
  by_cases he : s.derivedHolder g = (s.group g).holder
  · refine ⟨(s.group g).causes, ?_⟩
    rw [deriveHolder_same he, he]
    exact CausesOnly.refl g s
  · cases h : s.derivedHolder g with
    | none => exact ⟨{}, by rw [deriveHolder_lost h (fun k => he (h.trans k.symm))]; exact .refl _⟩
    | some n => exact ⟨_, (deriveHolder_new_judged h (fun k => he (h.trans k.symm))).1⟩

/-! ### SET GROUP (R125, R126) -/

theorem mapEntry_eq_none (b : Byte) : mapEntry b = none ↔ 8 < b.toNat := by
  revert b; decide

theorem mapEntry_eq_some_none (b : Byte) : mapEntry b = some none ↔ b = 0 := by
  revert b; decide

theorem hasDuplicate_eq_false : ∀ l : List (Option ChainNo), hasDuplicate l = false ↔ l.Pairwise (fun a b => a = b → a = none)
  | [] => by simp [hasDuplicate]
  | a :: rest => by
    rw [hasDuplicate, Bool.or_eq_false_iff, hasDuplicate_eq_false rest, List.pairwise_cons]
    refine and_congr_left' ?_
    cases a with
    | none => simp
    | some n =>
      simp only [Option.isSome_some, Bool.true_and, List.contains_eq_mem, decide_eq_false_iff_not, reduceCtorEq, imp_false]
      exact ⟨fun h x hx e => h (e ▸ hx), fun h hm => h _ hm rfl⟩

/-- Entries that pass as a map give no chain twice (R125). -/
theorem entries_apart {l : List (Option ChainNo)} {entries : List Byte} (h : entries.map mapEntry = l.map some)
    (hd : hasDuplicate l = false) : entries.Pairwise (fun x y => x = y → x = 0) := by
  have apart : (l.map some).Pairwise (fun a b => a = b → a = some none) :=
    List.pairwise_map.mpr (((hasDuplicate_eq_false l).mp hd).imp fun h e => congrArg some (h (Option.some.inj e)))
  rw [← h] at apart
  exact (List.pairwise_map.mp apart).imp fun h e => (mapEntry_eq_some_none _).mp (h (congrArg mapEntry e))

theorem setGroup_refused {s : State} {group a b c d : Byte}
    (h : ¬ (group = 1 ∨ group = 2) ∨ (∃ x ∈ [a, b, c, d], 8 < x.toNat) ∨ ¬ [a, b, c, d].Pairwise (fun x y => x = y → x = 0)) :
    Machine.setGroup [group, a, b, c, d] s = some (s, refuse (byteKey group) .badField) := by
  unfold Machine.setGroup
  dsimp only
  split
  · next g x y z w hg ha hb hc hd =>
    have codes : [a, b, c, d].map mapEntry = [x, y, z, w].map some := by simp [ha, hb, hc, hd]
    by_cases dup : hasDuplicate [x, y, z, w] = true
    · rw [if_pos dup]
    · rw [Bool.not_eq_true] at dup
      rcases h with h | ⟨e, he, h⟩ | h
      · rw [(groupOfCode_eq_none group).mpr h] at hg; cases hg
      · have : mapEntry e ∈ [x, y, z, w].map some := codes ▸ List.mem_map_of_mem he
        rw [(mapEntry_eq_none e).mpr h] at this
        simp at this
      · exact absurd (entries_apart codes dup) h
  · rfl

theorem setGroup_accepted {s : State} {group a b c d : Byte} {g : GroupId} {m : Vector (Option ChainNo) 4}
    (hg : groupOfCode group = some g) (hm : [mapEntry a, mapEntry b, mapEntry c, mapEntry d] = m.toList.map some)
    (hd : hasDuplicate m.toList = false) : Machine.setGroup [group, a, b, c, d] s
      = some ((s.configureGroup g m).1, .reply (byteKey group) (s.configureGroup g m).2 [[]]) := by
  obtain ⟨⟨l⟩, hl⟩ := m
  obtain ⟨x, y, z, w, rfl⟩ : ∃ x y z w, l = [x, y, z, w] := by
    match l, hl with
    | [x, y, z, w], _ => exact ⟨x, y, z, w, rfl⟩
  simp only [Vector.toList, List.map_cons, List.map_nil, List.cons.injEq, and_true] at hm hd
  obtain ⟨ha, hb, hc, hw⟩ := hm
  simp only [Machine.setGroup, hg, ha, hb, hc, hw, hd]
  rfl

theorem configureGroup_busy {s : State} {g : GroupId} (h : (s.group g).inFlight.isSome = true) (m : Vector (Option ChainNo) 4) :
    s.configureGroup g m = (s, some .busy) := by
  simp [State.configureGroup, h]

/-- A chain of the map is mapped in the other group. -/
def mapClashes (s : State) (g : GroupId) (m : Vector (Option ChainNo) 4) : Bool :=
  m.toList.any (fun e => match e with
    | some n => ((s.group g.other).inputOf n).isSome
    | none => false)

theorem mapClashes_iff (s : State) (g : GroupId) (m : Vector (Option ChainNo) 4) :
    mapClashes s g m = true ↔ ∃ n, some n ∈ m.toList ∧ ((s.group g.other).inputOf n).isSome = true := by
  simp only [mapClashes, List.any_eq_true]
  constructor
  · rintro ⟨e | n, hm, h⟩
    · cases h
    · exact ⟨n, hm, h⟩
  · rintro ⟨n, hm, h⟩
    exact ⟨some n, hm, h⟩

theorem configureGroup_free {s : State} {g : GroupId} (h : (s.group g).inFlight = none) (m : Vector (Option ChainNo) 4) :
    s.configureGroup g m = if mapClashes s g m then (s, some .badReference)
      else (State.deriveHolder (s.setGroup g { s.group g with map := m }) g, none) := by
  have hs : (s.group g).inFlight.isSome = false := by rw [h]; rfl
  unfold State.configureGroup mapClashes
  rw [hs]
  rfl

/-- Settles O42: the tests come in their order, and an accepted map is followed by the derivation of the air holder. -/
theorem setGroupMapsAndDerives : Obligations.SetGroupMapsAndDerives := by
  intro s group a b c d hs u entries
  refine ⟨fun h => congrArg Host.Outcome.next (deskCommand_refused hs _ _ _ _ _ (setGroup_refused h)), fun g m hg hm hd =>
    ⟨fun h => ?busy, fun h hc => ?clash, fun h hc => ?maps⟩⟩
  case busy =>
    refine congrArg Host.Outcome.next (deskCommand_refused hs _ _ _ _ _ ?_)
    rw [setGroup_accepted hg hm hd, configureGroup_busy (by rw [listening_group]; exact h)]
    rfl
  case clash =>
    refine congrArg Host.Outcome.next (deskCommand_refused hs _ _ _ _ _ ?_)
    rw [setGroup_accepted hg hm hd, configureGroup_free (by rw [listening_group]; exact h),
      if_pos ((mapClashes_iff ..).mpr (by simpa only [listening_group] using hc))]
    rfl
  case maps =>
    have free : ¬ mapClashes s.listening g m = true := by
      rw [mapClashes_iff]
      rintro ⟨n, hn, hi⟩
      rw [listening_group, hc n hn] at hi
      cases hi
    let v : State := s.listening.setGroup g { s.group g with map := m }
    obtain ⟨causes, frame⟩ := deriveHolder_spec v g
    have vg : v.group g = { s.group g with map := m } := State.group_setGroup_self ..
    rw [vg] at frame
    have chains : (v.deriveHolder g).chains = s.chains := by
      rw [frame.chains]
      cases g <;> rfl
    have record : (v.deriveHolder g).group g = _ := (frame.group g).trans (State.group_setGroup_self ..)
    have runs : Machine.setGroup [group, a, b, c, d] s.listening = some (v.deriveHolder g, accept (byteKey group)) := by
      rw [setGroup_accepted hg hm hd, configureGroup_free (by rw [listening_group]; exact h), if_neg free, listening_group]
      rfl
    have fieldCount : (v.deriveHolder g).fieldCount = s.fieldCount := by
      rw [frame.fieldCount]
      cases g <;> rfl
    have tracking : TrackingOnly v (v.deriveHolder g) := by
      refine TrackingOnly.trans ?_ frame.trackingOnly
      cases g <;> rfl
    have chain (n : ChainNo) : (v.deriveHolder g).chain n = v.chain n := by
      rw [frame.chain]
      cases g <;> rfl
    refine ⟨(v.deriveHolder g).answered 0x11 (byteKey group) none [],
      congrArg Host.Outcome.next (deskCommand_one hs _ _ _ _ none [] runs fieldCount), ?_, ?_, ?_, chains, tracking.answered ..⟩
    · exact congrArg GroupRecord.map record
    · refine (congrArg GroupRecord.holder record).trans ?_
      change _ = (((v.deriveHolder g).group g).shown).filter (fun n => ((v.deriveHolder g).chain n).state != .absent)
      rw [record]
      simp only [chain]
      rfl
    · refine (frame.group g.other).trans ((State.group_setGroup_other ..).trans ?_)
      exact (State.group_setGroup_other ..).trans (listening_group ..)

end Sys2Proof.Proofs.Groups
end

section
/-! The chain tracker: what an arrival makes of a record, and what the settling of a record is (Chapter 2). -/

namespace Sys2Proof.Proofs.Tracking

open Sys2Proof Sys2Proof.Machine

/-! ### Arrivals (R25 to R35) -/

/-- The record with the report stored, its state not yet derived (R25). -/
def storedReport (r : ChainRecord) (v : Reported) : ChainRecord :=
  { r with reported := v, heard := true, coasted := false, stale := false, coastCount := 0, missingCount := 0 }

theorem arrivalRecord_eq (r : ChainRecord) (v : Reported) (masked : Bool) :
    arrivalRecord r v masked = deriveArrival r (storedReport r v) masked := rfl

theorem arrival_faulted {r : ChainRecord} (h : r.state = .faulted) (v : Reported) (masked : Bool) :
    arrivalRecord r v masked = storedReport r v := by
  simp [arrivalRecord_eq, deriveArrival, h]

theorem arrival_fault {r : ChainRecord} (h : r.state ≠ .faulted) {v : Reported} (hf : v.fault ≠ .none) (masked : Bool) :
    arrivalRecord r v masked = (storedReport r v).asFaulted v.fault := by
  simp [arrivalRecord_eq, deriveArrival, h, storedReport, hf]

theorem arrival_motor {r : ChainRecord} (h : r.state ≠ .faulted) {v : Reported} (hf : v.fault = .none)
    (hm : stateByMotor v r.commanded.parkTarget ≠ .atSpeed) (masked : Bool) :
    arrivalRecord r v masked = { storedReport r v with state := stateByMotor v r.commanded.parkTarget } := by
  have hf' : ((storedReport r v).reported.fault != .none) = false := by simp [storedReport, hf]
  have hs : (r.state == .faulted) = false := by simp [h]
  simp only [arrivalRecord_eq, deriveArrival, hs, hf']
  generalize hx : stateByMotor (storedReport r v).reported (storedReport r v).commanded.parkTarget = x
  have hx' : x = stateByMotor v r.commanded.parkTarget := hx.symm
  rw [← hx'] at hm ⊢
  cases x <;> first | rfl | exact absurd rfl hm

theorem stateByMotor_atSpeed {v : Reported} (h : v.motor = .atSpeed) (p : Option Frame) : stateByMotor v p = .atSpeed := by
  simp [stateByMotor, h]

theorem arrival_unchecked {r : ChainRecord} (h : r.state ≠ .faulted) {v : Reported} (hf : v.fault = .none) (hm : v.motor = .atSpeed)
    (hr : r.state ≠ .atSpeed ∨ r.stale = true ∨ r.referenceDropped = true) (masked : Bool) :
    arrivalRecord r v masked = (storedReport r v).atSpeedUnchecked := by
  have hf' : ((storedReport r v).reported.fault != .none) = false := by simp [storedReport, hf]
  have hs : (r.state == .faulted) = false := by simp [h]
  have hu : (r.state != .atSpeed || r.stale || r.referenceDropped) = true := by simpa [or_assoc] using hr
  simp only [arrivalRecord_eq, deriveArrival, hs, hf']
  rw [show (storedReport r v).reported = v from rfl, stateByMotor_atSpeed hm]
  simp only [hu]
  rfl

theorem arrival_checked {r : ChainRecord} (h : r.state = .atSpeed) (hst : r.stale = false) (hd : r.referenceDropped = false)
    {v : Reported} (hf : v.fault = .none) (hm : v.motor = .atSpeed) (masked : Bool) :
    arrivalRecord r v masked = cadenceCheck r (storedReport r v) masked := by
  have hf' : ((storedReport r v).reported.fault != .none) = false := by simp [storedReport, hf]
  have hs : (r.state == .faulted) = false := by simp [h]
  have hu : (r.state != .atSpeed || r.stale || r.referenceDropped) = false := by simp [h, hst, hd]
  simp only [arrivalRecord_eq, deriveArrival, hs, hf']
  rw [show (storedReport r v).reported = v from rfl, stateByMotor_atSpeed hm]
  simp only [hu]
  rfl

/-- The fault condition of a report is its first cause in the order brake, gate, lamp (R27). -/
theorem fault_eq (v : Reported) : v.fault =
    if v.brk = true then .brk else if v.gate = true then .gate
    else if v.lamp = .failed ∧ (v.motor = .atSpeed ∨ v.motor = .runUp) then .lamp else .none := by
  simp [Reported.fault]

theorem cadenceCheck_stored (r x : ChainRecord) (masked : Bool) : ∃ st sl fc,
    cadenceCheck r x masked = { x with state := st, slipCount := sl, faultCause := fc } := by
  unfold cadenceCheck
  dsimp only
  split
  · exact ⟨_, _, _, rfl⟩
  · split
    · exact ⟨_, _, _, rfl⟩
    · split <;> exact ⟨_, _, _, rfl⟩

/-- Besides what it stores, an arrival writes the state, its cause, the slip count and the dropped reference alone. -/
theorem arrival_stored (r : ChainRecord) (v : Reported) (masked : Bool) : ∃ st sl fc rd,
    arrivalRecord r v masked = { storedReport r v with state := st, slipCount := sl, faultCause := fc, referenceDropped := rd } := by
  rw [arrivalRecord_eq]
  unfold deriveArrival
  split
  · exact ⟨_, _, _, _, rfl⟩
  · split
    · exact ⟨_, _, _, _, rfl⟩
    · split
      · split
        · exact ⟨_, _, _, _, rfl⟩
        · obtain ⟨st, sl, fc, e⟩ := cadenceCheck_stored r (storedReport r v) masked
          exact ⟨st, sl, fc, _, e⟩
      · exact ⟨_, _, _, _, rfl⟩

theorem cadenceCheck_cause {r x : ChainRecord} {masked : Bool} (h : (cadenceCheck r x masked).state ≠ .faulted) :
    (cadenceCheck r x masked).faultCause = x.faultCause := by
  unfold cadenceCheck at h ⊢
  dsimp only at h ⊢
  split
  · rfl
  · split
    · rfl
    · split
      · rfl
      · simp_all [ChainRecord.asFaulted]

theorem arrival_cause {r : ChainRecord} {v : Reported} {masked : Bool} (h : (arrivalRecord r v masked).state ≠ .faulted) :
    (arrivalRecord r v masked).faultCause = r.faultCause := by
  rw [arrivalRecord_eq] at h ⊢
  unfold deriveArrival at h ⊢
  split
  · rfl
  · split
    · simp_all [ChainRecord.asFaulted]
    · split
      · split
        · rfl
        · refine cadenceCheck_cause ?_
          simp_all
      · rfl

/-- Settles O24: each clause is one branch of the derivation. -/
theorem arrivalDerivesTheState : Obligations.ArrivalDerivesTheState := by
  intro r v masked t driven healthy
  obtain ⟨st, sl, fc, rd, e⟩ := arrival_stored r v masked
  have healthyFault (h : healthy) (hl : ¬ (v.lamp = .failed ∧ driven)) : v.fault = .none := by
    rw [fault_eq, if_neg (by simp [h.2.1]), if_neg (by simp [h.2.2]), if_neg hl]
  have byMotor (h : healthy) (hl : ¬ (v.lamp = .failed ∧ driven)) (hm : stateByMotor v r.commanded.parkTarget ≠ .atSpeed) :
      t.state = stateByMotor v r.commanded.parkTarget :=
    congrArg ChainRecord.state (arrival_motor h.1 (healthyFault h hl) hm masked)
  have undriven (hm : v.motor ≠ .atSpeed ∧ v.motor ≠ .runUp) : ¬ (v.lamp = .failed ∧ driven) := fun ⟨_, hd⟩ => by
    rcases hd with hd | hd
    · exact hm.1 hd
    · exact hm.2 hd
  refine ⟨?_, ?_, ?_, ?_, ?_, ?_, ?_, ?_, fun h => ?_, fun h hb => ?_, fun h hb hg => ?_, fun h hl hd => ?_, fun h hm => ?_,
    fun h hm => ?_, fun h hm => ?_, fun h hm hl => ?_, fun h hm hl hr => ?_, fun h hs => arrival_cause hs⟩
  · exact congrArg ChainRecord.reported e
  · exact congrArg ChainRecord.heard e
  · exact congrArg ChainRecord.coasted e
  · exact congrArg ChainRecord.stale e
  · exact congrArg ChainRecord.coastCount e
  · exact congrArg ChainRecord.missingCount e
  · exact (congrArg ChainRecord.config e).trans rfl
  · exact (congrArg ChainRecord.commanded e).trans rfl
  · have := arrival_faulted h v masked
    exact ⟨(congrArg ChainRecord.state this).trans h, (congrArg ChainRecord.faultCause this).trans rfl⟩
  · have hf : v.fault = .brk := by rw [fault_eq, if_pos hb]
    have := arrival_fault h (v := v) (by rw [hf]; nofun) masked
    exact ⟨congrArg ChainRecord.state this, (congrArg ChainRecord.faultCause this).trans hf⟩
  · have hf : v.fault = .gate := by rw [fault_eq, if_neg (by simp [hb]), if_pos hg]
    have := arrival_fault h (v := v) (by rw [hf]; nofun) masked
    exact ⟨congrArg ChainRecord.state this, (congrArg ChainRecord.faultCause this).trans hf⟩
  · have hf : v.fault = .lamp := by
      rw [fault_eq, if_neg (by simp [h.2.1]), if_neg (by simp [h.2.2]), if_pos ⟨hl, hd⟩]
    have := arrival_fault h.1 (v := v) (by rw [hf]; nofun) masked
    exact ⟨congrArg ChainRecord.state this, (congrArg ChainRecord.faultCause this).trans hf⟩
  · have motor : stateByMotor v r.commanded.parkTarget = if r.commanded.parkTarget = some v.frame then .cued else .idle := by
      simp [stateByMotor, hm]
    rw [byMotor h (undriven (by rw [hm]; exact ⟨nofun, nofun⟩)) (by rw [motor]; split <;> nofun), motor]
  · have motor : stateByMotor v r.commanded.parkTarget = .spooling := by simp [stateByMotor, hm]
    rw [byMotor h (undriven (by rw [hm]; exact ⟨nofun, nofun⟩)) (by rw [motor]; nofun), motor]
  · have motor : stateByMotor v r.commanded.parkTarget = .runDown := by simp [stateByMotor, hm]
    rw [byMotor h (undriven (by rw [hm]; exact ⟨nofun, nofun⟩)) (by rw [motor]; nofun), motor]
  · have motor : stateByMotor v r.commanded.parkTarget = .runUp := by simp [stateByMotor, hm]
    rw [byMotor h (fun k => hl k.1) (by rw [motor]; nofun), motor]
  · have := arrival_unchecked h.1 (healthyFault h fun k => hl k.1) hm hr masked
    exact ⟨congrArg ChainRecord.state this, congrArg ChainRecord.slipCount this, congrArg ChainRecord.referenceDropped this⟩

/-- Settles O25: an arrival at speed of a chain at speed is the cadence check, whose branches are these. -/
theorem secondSlipFaultsTheChain : Obligations.SecondSlipFaultsTheChain := by
  intro r v masked hs hst hd hb hg hl hm hslip t matched
  have hf : v.fault = .none := by
    rw [fault_eq, if_neg (by simp [hb]), if_neg (by simp [hg]), if_neg (fun k => hl k.1)]
  have ht : t = cadenceCheck r (storedReport r v) masked := arrival_checked hs hst hd hf hm masked
  obtain ⟨st, sl, fc, rd, e⟩ := arrival_stored r v masked
  refine ⟨congrArg ChainRecord.reported e, fun h => ?_, fun h hma => ?_, fun h hma h0 => ?_, fun h hma h1 => ?_⟩
  · have check : cadenceCheck r (storedReport r v) masked = { storedReport r v with state := .atSpeed, slipCount := 0 } := if_pos h
    rw [ht, check]
    exact ⟨rfl, rfl⟩
  · have check : cadenceCheck r (storedReport r v) masked = { storedReport r v with state := .atSpeed } :=
      (if_neg h).trans (if_pos hma)
    rw [ht, check]
    exact ⟨rfl, rfl⟩
  · have check : cadenceCheck r (storedReport r v) masked = { storedReport r v with state := .atSpeed, slipCount := 1 } :=
      (if_neg h).trans ((if_neg (by simp [hma])).trans (if_pos h0))
    rw [ht, check]
    exact ⟨rfl, rfl⟩
  · have check : cadenceCheck r (storedReport r v) masked = (storedReport r v).asFaulted .cadence :=
      (if_neg h).trans ((if_neg (by simp [hma])).trans (if_neg (by omega)))
    rw [ht, check]
    exact ⟨rfl, rfl⟩

end Sys2Proof.Proofs.Tracking
end

section
/-! What the notices of the tracker make of FIRED cues: an update, an entry into a state, a fault, a loss (R92, R94, R97 to R101). -/

namespace Sys2Proof.Proofs.Judging

open Sys2Proof Sys2Proof.Machine Sys2Proof.Proofs.Fates Sys2Proof.Proofs.WholeBank Sys2Proof.Proofs.CloseCues
  Sys2Proof.Proofs.Groups Sys2Proof.Proofs.Tracking Sys2Proof.Proofs.Basics

/-! ### What leaves an ended cue alone -/

/-- A cue that is DONE, FAILED or ABANDONED. -/
def Ended (c : Cue) : Prop := c.runtime.state = .done ∨ c.runtime.state = .failed ∨ c.runtime.state = .abandoned

/-- A step that keeps the bank calm and every ended cue as it is. -/
structure Spared (s t : State) : Prop where
  calm : Calm s → Calm t
  ended : Calm s → ∀ i c, s.liveCue i = some c → Ended c → t.liveCue i = some c

theorem Spared.of_cues {s t : State} (h : t.cues = s.cues) : Spared s t :=
  ⟨fun hs => ⟨h ▸ hs.1, h ▸ hs.2⟩, fun _ i _ hc _ => (liveCue_congr h i).trans hc⟩

theorem Spared.trans {s t u : State} (h : Spared s t) (k : Spared t u) : Spared s u :=
  ⟨fun hs => k.calm (h.calm hs), fun hs i c hc he => k.ended (h.calm hs) i c (h.ended hs i c hc he) he⟩

theorem carryOut_spared (s : State) (tasks : List Task) : Spared s (s.carryOut tasks) :=
  ⟨fun hs => carryOut_calm hs tasks, fun hs _ _ hc he => carryOut_ended hs hc he tasks⟩

theorem airFault_cues (s : State) (g : GroupId) (n : ChainNo) (c : Cause) : (s.airFault g n c).cues = s.cues := by
  unfold State.airFault
  split
  · rfl
  · rw [(raise_alarmsOnly ..).cues]
    cases g <;> rfl

theorem judgeAir_cues (s : State) (g : GroupId) (n : ChainNo) : (s.judgeAir g n).cues = s.cues := by
  have h (u : State) (b : Bool) (c : Cause) : (faultIf u g n b c).cues = u.cues := by
    cases b
    · rfl
    · exact airFault_cues ..
  rw [judgeAir_eq, h, h]

theorem groupUpdate_cues (s : State) (n : ChainNo) : (s.groupUpdate n).cues = s.cues := by
  unfold State.groupUpdate
  split
  · exact judgeAir_cues ..
  · rfl

theorem groupTrouble_cues (s : State) (n : ChainNo) (c : Cause) : (s.groupTrouble n c).cues = s.cues := by
  unfold State.groupTrouble
  split
  · exact airFault_cues ..
  · rfl

theorem deriveHolder_cues (s : State) (g : GroupId) : (s.deriveHolder g).cues = s.cues := by
  obtain ⟨a, h⟩ := deriveHolder_spec s g
  rw [h.cues]
  cases g <;> rfl

theorem groupEntry_cues (s : State) (n : ChainNo) (x y : ChainState) : (s.groupEntry n x y).cues = s.cues := by
  unfold State.groupEntry
  split
  · split
    · exact deriveHolder_cues ..
    · rfl
  · rfl

theorem stateChange_spared (s : State) (n : ChainNo) (x y : ChainState) (a : Option Field) : Spared s (s.stateChange n x y a) := by
  unfold State.stateChange
  split
  · exact .of_cues rfl
  · exact (carryOut_spared ..).trans (.of_cues (groupEntry_cues ..))

theorem updateNotice_spared (s : State) (n : ChainNo) (u : Field) (report : Bool) : Spared s (s.updateNotice n u report) := by
  have recorded : Spared s (s.recordUpdate n u) := ⟨id, fun _ _ _ hc _ => hc⟩
  unfold State.updateNotice
  dsimp only
  split
  · exact (recorded.trans (carryOut_spared ..)).trans (carryOut_spared ..)
  · exact recorded.trans (carryOut_spared ..)

theorem handUpdate_spared (s : State) (n : ChainNo) (u : Field) (report : Bool) : Spared s (s.handUpdate n u report) :=
  (updateNotice_spared ..).trans (.of_cues (groupUpdate_cues ..))

/-- A fate that has been met is kept. -/
theorem Spared.fate {s t : State} (h : Spared s t) (hs : Calm s) {i : CueId} {cause : FailureCause}
    (hf : s.fateOf i = some (.failed, cause)) : t.fateOf i = some (.failed, cause) := by
  obtain ⟨c, hc, e⟩ := Option.map_eq_some_iff.mp hf
  have hst : c.runtime.state = .failed := congrArg Prod.fst e
  rw [fateOf_eq (h.ended hs i c hc (.inr (.inl hst)))]
  exact congrArg some e

/-- The FIRED cues of a chain that is lost or disabled fail, whatever state change is then told (R22, R39, R101). -/
theorem lost_fate {s : State} (h : Calm s) {n : ChainNo} {i : CueId} {c : Cue} (hc : s.liveCue i = some c)
    (hf : c.runtime.state = .fired) (hn : c.fields.chain = n) (x y : ChainState) (a : Option Field) (cause : FailureCause) :
    ((s.failFired n cause).stateChange n x y a).fateOf i = some (.failed, cause) := by
  subst hn
  exact (stateChange_spared ..).fate (carryOut_calm h _) (failFired_fate h hc hf cause)

/-! ### SET CHAIN (R21 to R23) -/

theorem setChain_setChain (s : State) (n : ChainNo) (r q : ChainRecord) : (s.setChain n r).setChain n q = s.setChain n q := by
  simp [State.setChain]

/-- A configuration that does not disable the chain (R21, R23). -/
theorem configureChain_enabled {s : State} {n : ChainNo} {c : ChainConfig} (h : ((s.chain n).config.enabled && !c.enabled) = false) :
    s.configureChain n c = s.setChain n (if (s.chain n).config.cadence = c.cadence then { s.chain n with config := c }
      else ChainRecord.dropReference { s.chain n with config := c }) := by
  simp only [State.configureChain, h]
  split
  · rfl
  · exact (setChain_setChain ..).trans (by rw [if_neg (by simp), State.chain_setChain_self])

/-- The record of a chain that is disabled, its new configuration in place (R22). -/
def disabledRecord (r : ChainRecord) : ChainRecord :=
  { r with
    state := .absent, coasted := false, stale := false, coastCount := 0, missingCount := 0, slipCount := 0,
    faultCause := .none, heard := false }

theorem setChain_same (s : State) (n : ChainNo) : s.setChain n (s.chain n) = s := by
  simp [State.setChain, State.chain]

theorem disableChain_tracked (s : State) (n : ChainNo) :
    ((s.disableChain n).chain n).tracked = (disabledRecord (s.chain n)).tracked :=
  ((disableChain_spec s n).2 n).trans (congrArg ChainRecord.tracked (State.chain_setChain_self ..))

/-- A configuration that disables the chain: its reference is no more (R22, R23). -/
theorem configureChain_disabled {s : State} {n : ChainNo} {c : ChainConfig} (h : ((s.chain n).config.enabled && !c.enabled) = true) :
    s.configureChain n c = (s.setChain n { s.chain n with config := c }).disableChain n := by
  have absent : (((s.setChain n { s.chain n with config := c }).disableChain n).chain n).state = .absent := by
    have e := congrArg (fun r : ChainRecord => r.state) (disableChain_tracked (s.setChain n { s.chain n with config := c }) n)
    exact e
  simp only [State.configureChain, h, if_true]
  split
  · rfl
  · rw [ChainRecord.dropReference, absent]
    exact setChain_same ..

theorem disableChain_fate {s : State} (h : Calm s) {n : ChainNo} {i : CueId} {c : Cue} (hc : s.liveCue i = some c)
    (hf : c.runtime.state = .fired) (hn : c.fields.chain = n) : (s.disableChain n).fateOf i = some (.failed, .chainLost) := by
  have same : ((s.setChain n (disabledRecord (s.chain n))).withdraw (srcChainSilent n)).cues = s.cues :=
    (withdraw_alarmsOnly ..).cues
  exact lost_fate ((Spared.of_cues same).calm h) ((liveCue_congr same i).trans hc) hf hn _ _ _ _

theorem setChain_refused {s : State} {chain enabled cadence r l p0 p1 o0 o1 : Byte}
    (h : chain.toNat < 1 ∨ 8 < chain.toNat ∨ 2 ≤ enabled.toNat ∨ 2 ≤ cadence.toNat) :
    Machine.setChain [chain, enabled, cadence, r, l, p0, p1, o0, o1] s = some (s, refuse (byteKey chain) .badField) := by
  unfold Machine.setChain
  dsimp only
  split
  · next n e c hn he hc =>
    rcases h with h | h | h | h
    · rw [(indexOf_eq_none ..).mpr (.inl h)] at hn; cases hn
    · rw [(indexOf_eq_none ..).mpr (.inr h)] at hn; cases hn
    · rw [(yesNo_eq_none _).mpr h] at he; cases he
    · rw [(cadenceOf_eq_none _).mpr h] at hc; cases hc
  · rfl

theorem setChain_accepted {s : State} {chain enabled cadence r l p0 p1 o0 o1 : Byte} {n : ChainNo} {e : Bool} {c : Cadence}
    (hn : indexOf 8 chain = some n) (he : yesNo enabled = some e) (hc : cadenceOf cadence = some c) :
    Machine.setChain [chain, enabled, cadence, r, l, p0, p1, o0, o1] s
      = some (s.configureChain n (chainConfigOf e c r l (word p0 p1) (word o0 o1)), accept (byteKey chain)) := by
  simp only [Machine.setChain, hn, he, hc]

/-- Settles O43: a chain that stays writes its record alone; one that is disabled loses its FIRED cues to its own failing. -/
theorem setChainConfiguresOrDisables : Obligations.SetChainConfiguresOrDisables := by
  intro s chain enabled cadence r l p0 p1 o0 o1 hs command
  refine ⟨fun h => congrArg Host.Outcome.next (deskCommand_refused hs _ _ _ _ _ (setChain_refused h)), fun n e c hn he hc => ?_⟩
  let config := chainConfigOf e c r l (word p0 p1) (word o0 o1)
  intro configured answeredWith
  have record : configured = { s.chain n with config := config } := by
    simp [configured, config, chainConfigOf, clampNat]
  have stays (h : (s.chain n).config.enabled = false ∨ e = true) :
      ((s.listening.chain n).config.enabled && !config.enabled) = false := by
    rcases h with h | h <;> simp [config, chainConfigOf, h]
  have accepted (x : ChainRecord) (hx : s.listening.configureChain n config = s.listening.setChain n x) : answeredWith x := by
    refine congrArg Host.Outcome.next (deskCommand_one hs _ _ _ _ none [] ?_ rfl)
    rw [setChain_accepted hn he hc, hx]
    rfl
  refine ⟨fun h hcad => accepted _ ?_, fun h hcad hst => accepted _ ?_, fun h hcad hst => accepted _ ?_, fun h hoff => ?disables⟩
  · rw [configureChain_enabled (stays h), record]
    exact congrArg _ (if_pos hcad.symm)
  · rw [configureChain_enabled (stays h), record]
    refine congrArg _ ((if_neg fun k => hcad k.symm).trans ?_)
    simp [ChainRecord.dropReference, hst]
  · rw [configureChain_enabled (stays h), record]
    refine congrArg _ ((if_neg fun k => hcad k.symm).trans ?_)
    simp [ChainRecord.dropReference, hst]
  case disables =>
    have off : ((s.listening.chain n).config.enabled && !config.enabled) = true := by simp [config, chainConfigOf, h, hoff]
    let v := s.listening.setChain n { s.chain n with config := config }
    have runs : Machine.setChain [chain, enabled, cadence, r, l, p0, p1, o0, o1] s.listening
        = some (v.disableChain n, accept (byteKey chain)) := by
      rw [setChain_accepted hn he hc]
      exact congrArg (fun u => some (u, accept (byteKey chain))) (configureChain_disabled off)
    obtain ⟨tracking, tracked⟩ := disableChain_spec v n
    have whole : TrackingOnly s.listening (v.disableChain n) :=
      ((TrackingOnly.setChain ..).trans (TrackingOnly.setChain ..)).trans tracking
    have own := disableChain_tracked v n
    rw [State.chain_setChain_self] at own
    have field {α : Type} (f : ChainRecord → α) (hf : ∀ r : ChainRecord, f r.tracked = f r) :
        f ((v.disableChain n).chain n) = f (disabledRecord { s.chain n with config := config }) := by
      rw [← hf, own, hf]
    refine ⟨(v.disableChain n).answered 0x10 (byteKey chain) none [],
      congrArg Host.Outcome.next (deskCommand_one hs _ _ _ _ none [] runs whole.fieldCount), field (·.state) fun _ => rfl, ?_,
      field (·.heard) fun _ => rfl, field (·.stale) fun _ => rfl, field (·.coasted) fun _ => rfl,
      field (·.missingCount) fun _ => rfl, field (·.coastCount) fun _ => rfl, field (·.slipCount) fun _ => rfl,
      field (·.faultCause) fun _ => rfl, field (·.reported) fun _ => rfl, fun m hm => ?_, whole.answered ..,
      fun hp hb i d hd hf hch => ?_⟩
    · rw [record]
      exact field (·.config) fun _ => rfl
    · refine (tracked m).trans ?_
      rw [State.chain_setChain_ne _ _ _ _ hm, State.chain_setChain_ne _ _ _ _ hm]
      rfl
    · exact disableChain_fate (s := v) (.of_bankSound hp hb) hd hf hch

end Sys2Proof.Proofs.Judging
end

section
/-! The loop port between the line and the round master: the shifter's time, the assembler, the sorting of what it hands on
(sections 1.1, 1.2, R1, R4 to R6), and the losses taken alone (R9, R18). -/

namespace Sys2Proof.Proofs.Loop

open Sys2Proof Sys2Proof.Machine Sys2Proof.Proofs.Basics

/-! ### SYNC LOSS and LOOP LOSS (R9, R18) -/

/-- Settles O17: each third miss raises its alarm, and a raising changes nothing but alarms. -/
theorem thirdMissDeclaresTheLoss : Obligations.ThirdMissDeclaresTheLoss := by
  intro s
  exact ⟨fun h => ⟨_, congrArg Host.Outcome.next (if_pos h), raise_stands .., raise_alarmsOnly ..⟩,
    fun h => ⟨_, congrArg Host.Outcome.next (if_pos h), raise_stands .., raise_alarmsOnly ..⟩⟩

/-! ### The shifter (R1) -/

theorem shiftOut_zero : ∀ {rounds : List (List Byte)}, (∀ r ∈ rounds, r ≠ []) →
    shiftOut rounds 0 = { rounds := rounds, position := 0 }
  | [], _ => rfl
  | r :: rest, h => by
    have : 0 < r.length := List.length_pos_iff.mpr (h r List.mem_cons_self)
    rw [shiftOut, if_neg (by simp only [charSamples]; omega)]
    rfl

theorem shiftOut_round (round : List Byte) (rest : List (List Byte)) :
    shiftOut (round :: rest) (176 * round.length) = shiftOut rest 0 := by
  simp [shiftOut, charSamples]

/-- Settles O14: the time left brings the shifter to the end of its round, where the next one begins. -/
theorem shifterFinishesTheRound : Obligations.ShifterFinishesTheRound := by
  intro s round rest hr hp hne
  have left : s.port.shifter.roundLeft = 176 * round.length - s.port.shifter.position := by
    simp only [Shifter.roundLeft, hr, charSamples]
  change Host.Outcome.next (s.elapse s.port.shifter.roundLeft) = _
  rw [left, State.elapse, hr, Nat.add_sub_cancel' hp, shiftOut_round, shiftOut_zero hne]

/-! ### Sorting (R6) -/

theorem addressee_chain : ∀ d : Station, 1 ≤ d.toNat → d.toNat ≤ 8 → ∃ n, addressee d = (some n, none) ∧ chainAddress n = d := by
  decide

theorem addressee_group : ∀ d : Station, d = 9 ∨ d = 10 → ∃ g, addressee d = (none, some g) ∧ groupAddress g = d := by
  rintro d (rfl | rfl)
  · exact ⟨.a, rfl, rfl⟩
  · exact ⟨.b, rfl, rfl⟩

theorem addressee_other : ∀ d : Station, d = 0 ∨ 11 ≤ d.toNat → addressee d = (none, none) := by decide

theorem addressee_chainAddress : ∀ n : ChainNo, addressee (chainAddress n) = (some n, none) := by decide

theorem addressee_groupAddress : ∀ g : GroupId, addressee (groupAddress g) = (none, some g)
  | .a => rfl
  | .b => rfl

theorem chainAddress_ne_zero : ∀ n : ChainNo, chainAddress n ≠ 0 := by decide

theorem groupAddress_ne_zero : ∀ g : GroupId, groupAddress g ≠ 0
  | .a => by decide
  | .b => by decide

section
variable {s : State} {t : Telegram}

theorem sortOther_chain {n : ChainNo} {o : Option GroupId} (h : addressee t.src = (some n, o)) :
    s.sortOther t = if t.kind = kindChainReport && toController t.dest then s.chainReport n t.payload else s := by
  simp only [State.sortOther, h]

theorem sortOther_group {g : GroupId} (h : addressee t.src = (none, some g)) :
    s.sortOther t = if t.kind = kindMuxReport && toController t.dest then s.muxReport g t.payload else s := by
  simp only [State.sortOther, h]

theorem sortOther_rest (h : addressee t.src = (none, none)) :
    s.sortOther t = if t.src = 14 && t.kind = kindDeskCommand && t.dest == 0 then s.deskTelegram t.payload else s := by
  simp only [State.sortOther, h]

theorem receive_other (hw : s.windowOpen = true) (h : t.src ≠ 0) : s.receiveTelegram t = s.sortOther t := by
  rw [State.receiveTelegram, if_pos hw, if_neg h]

theorem receive_own (hw : s.windowOpen = true) (h : t.src = 0) : s.receiveTelegram t = s.sortOwn t := by
  rw [State.receiveTelegram, if_pos hw, if_pos h]

/-- With no window open only a FIELD HEAD of the controller is read (R6). -/
theorem receive_shut (hw : s.windowOpen = false) (h : ¬ (t.src = 0 ∧ t.kind = kindFieldHead)) : s.receiveTelegram t = s := by
  simp only [State.receiveTelegram, hw]
  simpa using fun a b => absurd ⟨a, b⟩ h

theorem toController_iff (d : Station) : toController d = true ↔ d = 0 ∨ d = 15 := by simp [toController]

/-- The second report of a chain's unit in one window is discarded (R6). -/
theorem chainReport_again {n : ChainNo} (h : chainAddress n ∈ s.round.reported) (p : List Byte) : s.chainReport n p = s :=
  if_pos (List.contains_iff_mem.mpr h)

/-- The second report of a multiplexer in one window is discarded (R6). -/
theorem muxReport_again {g : GroupId} (h : groupAddress g ∈ s.round.reported) (p : List Byte) : s.muxReport g p = s :=
  if_pos (List.contains_iff_mem.mpr h)

theorem sortOther_again (h1 : 1 ≤ t.src.toNat) (h2 : t.src.toNat ≤ 10) (h : t.src ∈ s.round.reported) : s.sortOther t = s := by
  by_cases h8 : t.src.toNat ≤ 8
  · obtain ⟨n, ha, hn⟩ := addressee_chain _ h1 h8
    rw [sortOther_chain ha, chainReport_again (hn ▸ h), ite_self]
  · obtain ⟨g, ha, hg⟩ := addressee_group t.src (by bv_omega)
    rw [sortOther_group ha, muxReport_again (hg ▸ h), ite_self]

end

theorem src_ne_zero {d : Station} (h : 1 ≤ d.toNat) : d ≠ 0 := by rintro rfl; simp at h

/-- Settles O13: the sorting row by row of R6. -/
theorem uselessTelegramsAreDiscarded : Obligations.UselessTelegramsAreDiscarded := by
  intro s t hr
  have received (t : Telegram) : exec (.ignoredTelegram t) s = .next (s.listening.receiveTelegram t) :=
    congrArg Host.Outcome.next (received_inWindow hr _)
  have other (hw : s.windowOpen = true) (h0 : t.src ≠ 0) (h : s.listening.sortOther t = s.listening) :
      exec (.ignoredTelegram t) s = .next s.listening := by
    rw [received, receive_other (s := s.listening) hw h0, h]
  refine ⟨fun hw h => ?shut, fun hw h => ?station, fun hw h1 h8 h => ?chain, fun hw hg h => ?group, fun hw hd h => ?desk,
    fun hw h1 h10 h => ?again, fun n dest p hw h => ?chainAgain, fun g dest p hw h => ?groupAgain⟩
  case shut => rw [received, receive_shut (s := s.listening) hw h]
  case station =>
    refine other hw (by rcases h with h | h | h | h <;> simp [h]) ?_
    rw [sortOther_rest (addressee_other _ (by rcases h with h | h | h | h <;> simp [h])),
      if_neg (by rcases h with h | h | h | h <;> simp [h])]
  case chain =>
    obtain ⟨n, ha, -⟩ := addressee_chain _ h1 h8
    refine other hw (src_ne_zero h1) ((sortOther_chain ha).trans (if_neg ?_))
    rw [Bool.and_eq_true, decide_eq_true_iff, toController_iff]
    tauto
  case group =>
    obtain ⟨g, ha, -⟩ := addressee_group _ hg
    refine other hw (by rcases hg with hg | hg <;> simp [hg]) ((sortOther_group ha).trans (if_neg ?_))
    rw [Bool.and_eq_true, decide_eq_true_iff, toController_iff]
    tauto
  case desk =>
    refine other hw (by simp [hd]) ((sortOther_rest (addressee_other _ (by simp [hd]))).trans (if_neg ?_))
    rw [Bool.and_eq_true, Bool.and_eq_true, decide_eq_true_iff, decide_eq_true_iff, beq_iff_eq]
    tauto
  case again => exact other hw (src_ne_zero h1) (sortOther_again h1 h10 h)
  case chainAgain =>
    refine congrArg Host.Outcome.next ((received_inWindow hr _).trans ?_)
    rw [receive_other (s := s.listening) hw (chainAddress_ne_zero n), sortOther_chain (addressee_chainAddress n),
      chainReport_again (s := s.listening) h, ite_self]
  case groupAgain =>
    refine congrArg Host.Outcome.next ((received_inWindow hr _).trans ?_)
    rw [receive_other (s := s.listening) hw (groupAddress_ne_zero g), sortOther_group (addressee_groupAddress g),
      muxReport_again (s := s.listening) h, ite_self]

end Sys2Proof.Proofs.Loop
end

section
/-! The assembler: a train of telegrams is read back, and a failed telegram leaves nothing (R4, R5, R204). -/

namespace Sys2Proof.Proofs.Assembly

open Sys2Proof Sys2Proof.Machine Sys2Proof.Proofs.Basics

/-! ### Characters in a row -/

theorem feed_append : ∀ (cs ds : List RxChar) (a : Assembler),
    feed a (cs ++ ds) = ((feed (feed a cs).1 ds).1, (feed a cs).2 ++ (feed (feed a cs).1 ds).2)
  | [], _, _ => rfl
  | c :: cs, ds, a => by
    simp only [List.cons_append, feed, feed_append cs ds, List.append_assoc]

theorem feed_single (a : Assembler) (c : RxChar) : feed a [c] = ((assemble a c).1, (assemble a c).2.toList) := by
  simp [feed]

/-- What becomes of a character that the assembler has taken so. -/
def handOn (s : State) (x : Assembler × Option Telegram) : State :=
  match x.2 with
  | some t => (s.setAssembler x.1).receiveTelegram t
  | none => s.setAssembler x.1

theorem takeChar_setAssembler {s : State} (hr : s.rstActive = false) (a : Assembler) (c : RxChar) :
    (s.setAssembler a).takeChar c = handOn s (assemble a c) := by
  rw [State.takeChar, if_neg (show ¬ (s.setAssembler a).rstActive = true from Bool.eq_false_iff.mp hr)]
  rfl

/-- A character that the assembler takes alike in two states leads to the same. -/
theorem takeChar_congr {s : State} (hr : s.rstActive = false) {a b : Assembler} {c : RxChar} (h : assemble a c = assemble b c) :
    (s.setAssembler a).takeChar c = (s.setAssembler b).takeChar c := by
  rw [takeChar_setAssembler hr, takeChar_setAssembler hr, h]

/-- Characters that complete no telegram leave only what the assembler makes of them. -/
theorem takeChars_feed {s : State} (hr : s.rstActive = false) : ∀ (cs : List RxChar) (a : Assembler), (feed a cs).2 = [] →
    cs.foldl State.takeChar (s.setAssembler a) = s.setAssembler (feed a cs).1
  | [], _, _ => rfl
  | c :: cs, a, h => by
    rw [feed, List.append_eq_nil_iff] at h
    obtain ⟨hone, hrest⟩ := h
    have one : handOn s (assemble a c) = s.setAssembler (assemble a c).1 := by
      rw [handOn, Option.toList_eq_nil_iff.mp hone]
    rw [List.foldl_cons, takeChar_setAssembler hr, one, takeChars_feed hr cs _ hrest]
    rfl

/-! ### One character (R4, R5) -/

theorem longGap_eq_false {n : Nat} : longGap n = false ↔ n ≤ 352 := by simp [longGap]

theorem longGap_eq_true {n : Nat} : longGap n = true ↔ 352 < n := by simp [longGap]

/-- A long gap makes the next character an address byte, whatever was being assembled (R4, R5). -/
theorem assemble_after_gap {c : RxChar} (h : 352 < c.gap) (a : Assembler) : assemble a c = assemble .awaitAddress c := by
  cases a <;> simp [assemble, longGap_eq_true.mpr h]

/-- A short gap is none (R5). -/
theorem assemble_short_gap {c : RxChar} (h : c.gap ≤ 352) (a : Assembler) : assemble a c = assemble a { c with gap := 0 } := by
  have hz : longGap 0 = false := rfl
  cases a <;> simp [assemble, longGap_eq_false.mpr h, hz, takeInTelegram]

theorem assemble_hunt {c : RxChar} (h : c.gap ≤ 352) : assemble .hunt c = (.hunt, none) := by
  simp [assemble, longGap_eq_false.mpr h]

theorem assemble_in {c : RxChar} (h : c.gap ≤ 352) (got : List Byte) (bad : Bool) :
    assemble (.inTelegram got bad) c = takeInTelegram got bad c := by
  simp [assemble, longGap_eq_false.mpr h]

/-- In HUNT every character without a long gap before it is dropped (R4). -/
theorem feed_hunt : ∀ cs : List RxChar, (∀ c ∈ cs, c.gap ≤ 352) → feed .hunt cs = (.hunt, [])
  | [], _ => rfl
  | c :: cs, h => by
    obtain ⟨hc, hcs⟩ := List.forall_mem_cons.mp h
    rw [feed, assemble_hunt hc]
    simp [feed_hunt cs hcs]

/-- A bad length byte, and one above 24, leaves HUNT (R5). -/
theorem feed_bad_length {c0 c1 c2 : RxChar} (h1 : c1.gap ≤ 352) (h2 : c2.gap ≤ 352) (h : c2.bad = true ∨ 24 < c2.data.toNat)
    {rest : List RxChar} (hrest : ∀ c ∈ rest, c.gap ≤ 352) : feed .awaitAddress (c0 :: c1 :: c2 :: rest) = (.hunt, []) := by
  have second : takeInTelegram [c0.data] c0.bad c1 = (.inTelegram [c0.data, c1.data] (c0.bad || c1.bad), none) := rfl
  have third : takeInTelegram [c0.data, c1.data] (c0.bad || c1.bad) c2 = (.hunt, none) := if_pos (by simpa using h)
  have first : assemble .awaitAddress c0 = (.inTelegram [c0.data] c0.bad, none) := rfl
  rw [feed, first, feed, assemble_in h1, second, feed, assemble_in h2, third, feed_hunt rest hrest]
  rfl

/-- A character that R5 makes no end, and not the last one, is collected (R4). -/
theorem takeInTelegram_more {got : List Byte} {bad : Bool} {c : RxChar} (h2 : got.length = 2 → c.bad = false ∧ c.data.toNat ≤ 24)
    (h3 : 2 ≤ got.length → got.length + 1 ≠ expectedChars (got ++ [c.data])) :
    takeInTelegram got bad c = (.inTelegram (got ++ [c.data]) (bad || c.bad), none) := by
  have length : (got ++ [c.data]).length = got.length + 1 := by simp
  rw [takeInTelegram, if_neg, if_neg]
  · rw [length, Bool.and_eq_true, decide_eq_true_iff, decide_eq_true_iff]
    exact fun h => h3 (by omega) h.2
  · rw [length, Bool.and_eq_true, decide_eq_true_iff, Bool.or_eq_true, decide_eq_true_iff]
    rintro ⟨h, hbad⟩
    obtain ⟨hgood, hle⟩ := h2 (by omega)
    rcases hbad with hbad | hbad
    · simp [hgood] at hbad
    · omega

/-- The last character by the length byte ends the telegram, which is judged (R4, R5). -/
theorem takeInTelegram_last {got : List Byte} {bad : Bool} {c : RxChar} (h3 : 3 ≤ got.length)
    (h : got.length + 1 = expectedChars (got ++ [c.data])) :
    takeInTelegram got bad c = (.awaitAddress, judgeTelegram (got ++ [c.data]) (bad || c.bad)) := by
  have length : (got ++ [c.data]).length = got.length + 1 := by simp
  rw [takeInTelegram, if_neg, if_pos]
  · rw [length, Bool.and_eq_true, decide_eq_true_iff, decide_eq_true_iff]
    exact ⟨by omega, h⟩
  · rw [length, Bool.and_eq_true, decide_eq_true_iff]
    omega

/-! ### A whole telegram (R4, R204) -/

/-- Characters, without long gaps, whose length byte R5 takes and says how many they are. -/
structure Sized (cs : List RxChar) : Prop where
  gaps   : ∀ c ∈ cs, c.gap ≤ 352
  length : cs.length = expectedChars (cs.map RxChar.data)
  short  : cs.length ≤ 28
  good   : ∀ c, cs[2]? = some c → c.bad = false

section
variable {cs : List RxChar}

theorem take_succ_eq {i : Nat} (h : i < cs.length) : cs.take (i + 1) = cs.take i ++ [cs[i]] := by
  rw [List.take_add_one, List.getElem?_eq_getElem h]
  rfl

/-- The length byte is known from the third character on. -/
theorem expectedChars_take (h : Sized cs) {i : Nat} (hi : 2 < i) : expectedChars ((cs.take i).map RxChar.data) = cs.length := by
  rw [h.length, expectedChars, expectedChars, List.map_take]
  simp [List.getD, hi]

/-- Until its last character a telegram is collected (R4). -/
theorem feed_part (h : Sized cs) : ∀ i, i + 1 < cs.length → feed .awaitAddress (cs.take (i + 1))
      = (.inTelegram ((cs.take (i + 1)).map RxChar.data) ((cs.take (i + 1)).any RxChar.bad), [])
  | 0, hi => by
    rw [take_succ_eq (by omega)]
    simp [feed, assemble]
  | i + 1, hi => by
    have hin : i + 1 < cs.length := by omega
    have length : ((cs.take (i + 1)).map RxChar.data).length = i + 1 := by simp; omega
    have collected : (cs.take (i + 1)).map RxChar.data ++ [cs[i + 1].data] = (cs.take (i + 1 + 1)).map RxChar.data := by
      rw [take_succ_eq hin, List.map_append]; rfl
    have more := takeInTelegram_more (got := (cs.take (i + 1)).map RxChar.data) (bad := (cs.take (i + 1)).any RxChar.bad)
      (c := cs[i + 1])
    rw [length, collected] at more
    rw [take_succ_eq hin, feed_append, feed_part h i hin, feed_single, assemble_in (h.gaps _ (List.getElem_mem _)),
      more, ← collected, List.any_append]
    · simpa using collected
    · intro h2
      have size := h.length
      obtain rfl : i = 1 := by omega
      refine ⟨h.good _ (List.getElem?_eq_getElem hin), ?_⟩
      have third : (cs.map RxChar.data).getD 2 0 = cs[2].data := by simp [List.getD, hin]
      rw [expectedChars, third] at size
      have := h.short
      change cs[2].data.toNat ≤ 24
      omega
    · intro h2
      rw [expectedChars_take h (by omega)]
      omega

/-- With its last character a telegram is judged, and the next one is awaited (R4). -/
theorem feed_whole (h : Sized cs) :
    feed .awaitAddress cs = (.awaitAddress, (judgeTelegram (cs.map RxChar.data) (cs.any RxChar.bad)).toList) := by
  obtain ⟨i, hi⟩ : ∃ i, cs.length = i + 4 := ⟨_, h.length.trans (Nat.add_comm ..)⟩
  have hin : i + 3 < cs.length := by omega
  have all : cs = cs.take (i + 3) ++ [cs[i + 3]] := by
    rw [← take_succ_eq hin, List.take_of_length_le (by omega)]
  have whole := expectedChars_take h (i := i + 4) (by omega)
  rw [take_succ_eq hin, List.map_append] at whole
  have last := takeInTelegram_last (got := (cs.take (i + 3)).map RxChar.data) (bad := (cs.take (i + 3)).any RxChar.bad)
    (c := cs[i + 3]) (by simp; omega) (by refine Eq.trans ?_ whole.symm; simp; omega)
  have step : feed .awaitAddress (cs.take (i + 3) ++ [cs[i + 3]]) = (.awaitAddress,
      (judgeTelegram ((cs.take (i + 3) ++ [cs[i + 3]]).map RxChar.data)
        ((cs.take (i + 3) ++ [cs[i + 3]]).any RxChar.bad)).toList) := by
    rw [feed_append, feed_part h (i + 2) hin, feed_single, assemble_in (h.gaps _ (List.getElem_mem _)), last, List.map_append,
      List.any_append]
    simp
  rwa [← all] at step

end

/-! ### The bytes of a telegram (section 12.1) -/

theorem telegramBytes_eq (t : Telegram) : telegramBytes t
    = (t.dest ++ t.src : Byte) :: t.kind :: byteOf t.payload.length :: (t.payload ++ [checkOf (telegramBody t)]) := rfl

theorem telegramBytes_length (t : Telegram) : (telegramBytes t).length = telegramChars t := by
  simp [telegramBytes, telegramBody, telegramChars]
  omega

theorem byteOf_toNat {n : Nat} (h : n < 256) : (byteOf n).toNat = n := by
  simp [byteOf, Nat.mod_eq_of_lt h]

theorem expectedChars_telegramBytes {t : Telegram} (h : t.payload.length ≤ 24) :
    expectedChars (telegramBytes t) = telegramChars t := by
  change 4 + (byteOf t.payload.length).toNat = 4 + t.payload.length
  rw [byteOf_toNat (by omega)]

theorem goodChars_data (bytes : List Byte) : (goodChars bytes).map RxChar.data = bytes := by
  simp [goodChars, Function.comp_def]

theorem goodChars_any (bytes : List Byte) : (goodChars bytes).any RxChar.bad = false := by
  simp [goodChars]

theorem goodChars_append (l m : List Byte) : goodChars (l ++ m) = goodChars l ++ goodChars m := List.map_append ..

theorem goodChars_gap {bytes : List Byte} : ∀ c ∈ goodChars bytes, c.gap ≤ 352 := by
  simp [goodChars]

theorem goodChars_good {bytes : List Byte} {i : Nat} {c : RxChar} (h : (goodChars bytes)[i]? = some c) : c.bad = false := by
  have : c ∈ goodChars bytes := List.mem_of_getElem? h
  simp only [goodChars, List.mem_map] at this
  obtain ⟨_, _, rfl⟩ := this
  rfl

theorem sized_goodChars {bytes : List Byte} (h : bytes.length = expectedChars bytes) (h28 : bytes.length ≤ 28) :
    Sized (goodChars bytes) where
  gaps := goodChars_gap
  length := by rw [goodChars_data, ← h]; simp [goodChars]
  short := by simpa [goodChars] using h28
  good _ := goodChars_good

theorem sized_telegram {t : Telegram} (h : t.payload.length ≤ 24) : Sized (goodChars (telegramBytes t)) :=
  sized_goodChars ((telegramBytes_length t).trans (expectedChars_telegramBytes h).symm)
    (by rw [telegramBytes_length, telegramChars]; omega)

/-- What is sent is judged to be the telegram that it was (R204). -/
theorem judgeTelegram_telegramBytes (t : Telegram) : judgeTelegram (telegramBytes t) false = some t := by
  have check : (telegramBytes t).getLast? = some (checkOf (telegramBytes t).dropLast) := by
    rw [telegramBytes, List.getLast?_concat, List.dropLast_concat]
  rw [judgeTelegram, check, telegramBytes_eq]
  have dest : (t.dest ++ t.src : Byte).extractLsb' 4 4 = t.dest := by
    generalize t.dest = d, t.src = s
    revert d s; decide
  have src : (t.dest ++ t.src : Byte).extractLsb' 0 4 = t.src := by
    generalize t.dest = d, t.src = s
    revert d s; decide
  simp [telegramOf, dest, src]

/-- Settles O11: telegram by telegram, each collected and judged, the assembler then awaiting the next. -/
theorem assemblerReadsWhatIsSent : Obligations.AssemblerReadsWhatIsSent := by
  intro train h
  induction train with
  | nil => rfl
  | cons t rest ih =>
    obtain ⟨ht, hrest⟩ := List.forall_mem_cons.mp h
    rw [List.flatMap_cons, goodChars_append, feed_append, feed_whole (sized_telegram ht), goodChars_data, goodChars_any,
      judgeTelegram_telegramBytes, ih hrest]
    rfl

/-! ### Telegrams that fail (R5) -/

/-- A telegram with a bad character is none (R5). -/
theorem judgeTelegram_bad (bytes : List Byte) : judgeTelegram bytes true = none := rfl

/-- A telegram whose check byte differs is none (R5). -/
theorem judgeTelegram_check {body : List Byte} {check : Byte} (h : check ≠ checkOf body) (bad : Bool) :
    judgeTelegram (body ++ [check]) bad = none := by
  rw [judgeTelegram, List.getLast?_concat, List.dropLast_concat, if_pos]
  simp [h]

theorem checkOf_eq_foldl (bytes : List Byte) : bytes.foldl (· ^^^ ·) 0 = checkOf bytes := by
  have from_acc : ∀ (l : List Byte) (a : Byte), l.foldl (· ^^^ ·) a = a ^^^ checkOf l := by
    intro l
    induction l with
    | nil => simp [checkOf]
    | cons b rest ih => intro a; rw [List.foldl_cons, ih, checkOf, BitVec.xor_assoc]
  rw [from_acc]
  exact BitVec.zero_xor

/-- The bytes before the check byte. -/
theorem telegramBytes_take (t : Telegram) : (telegramBytes t).take (telegramChars t - 1) = telegramBody t := by
  have : telegramChars t - 1 = (telegramBody t).length := by
    simp [telegramBody, telegramChars]
    omega
  rw [this, telegramBytes, List.take_left']
  rfl

/-- A telegram with one bad character, not its length byte, takes as many characters (R5). -/
theorem sized_set {cs : List RxChar} (h : Sized cs) {i : Nat} (hi : i ≠ 2) (data : Byte) :
    Sized (cs.set i { gap := 0, data := data, bad := true }) where
  gaps c hc := by
    rcases List.mem_or_eq_of_mem_set hc with hc | rfl
    · exact h.gaps c hc
    · simp
  length := by
    rw [List.length_set, h.length, expectedChars, expectedChars, List.map_set]
    simp [List.getD, hi]
  short := by rw [List.length_set]; exact h.short
  good c hc := h.good c (by rwa [List.getElem?_set_ne hi] at hc)

/-- A bad character that is not the length byte leaves the assembler awaiting an address (R5). -/
theorem feed_bad_character {cs : List RxChar} (h : Sized cs) {i : Nat} (hi : i ≠ 2) (hin : i < cs.length) (data : Byte) :
    feed .awaitAddress (cs.set i { gap := 0, data := data, bad := true }) = (.awaitAddress, []) := by
  have bad : (cs.set i { gap := 0, data := data, bad := true }).any RxChar.bad = true :=
    List.any_eq_true.mpr ⟨_, List.mem_set hin _, rfl⟩
  rw [feed_whole (sized_set h hi data), bad, judgeTelegram_bad]
  rfl

/-- A telegram with a wrong check byte leaves the assembler awaiting an address (R5). -/
theorem feed_bad_check {t : Telegram} (h : t.payload.length ≤ 24) {check : Byte} (hne : check ≠ checkOf (telegramBody t)) :
    feed .awaitAddress (goodChars (telegramBody t ++ [check])) = (.awaitAddress, []) := by
  have length : (telegramBody t ++ [check]).length = telegramChars t := by
    simp [telegramBody, telegramChars]
    omega
  have expected : expectedChars (telegramBody t ++ [check]) = telegramChars t := expectedChars_telegramBytes h
  rw [feed_whole (sized_goodChars (length.trans expected.symm) (by rw [length, telegramChars]; omega)), goodChars_data,
    goodChars_any, judgeTelegram_check hne]
  rfl

/-- A part of a telegram leaves an assembler that takes a character after a long gap as if nothing had come (R5). -/
theorem feed_take_noTelegram {cs : List RxChar} (h : Sized cs) {i : Nat} (hi : i < cs.length) :
    (feed .awaitAddress (cs.take i)).2 = [] := by
  cases i with
  | zero => rfl
  | succ i => rw [feed_part h i hi]

theorem takeChar_short_gap {c : RxChar} (h : c.gap ≤ 352) (s : State) : s.takeChar c = s.takeChar { c with gap := 0 } := by
  rw [State.takeChar, State.takeChar, assemble_short_gap h]

/-- Short gaps make no difference (R5). -/
theorem takeChars_short_gaps : ∀ (cs : List RxChar) (s : State), (∀ c ∈ cs, c.gap ≤ 352) →
    cs.foldl State.takeChar s = (cs.map (fun x => { x with gap := 0 })).foldl State.takeChar s
  | [], _, _ => rfl
  | c :: cs, s, h => by
    obtain ⟨hc, hcs⟩ := List.forall_mem_cons.mp h
    rw [List.map_cons, List.foldl_cons, List.foldl_cons, takeChar_short_gap hc, takeChars_short_gaps cs _ hcs]

theorem noteStop_awaiting {s : State} (h : s.port.assembler = .awaitAddress) :
    s.noteStop.setAssembler .awaitAddress = s.noteStop := by
  rw [← h]
  rfl

theorem exec_telegramFail {s : State} (h : s.rstActive = false) (cs : List RxChar) :
    exec (.telegramFail cs) s = .next (cs.foldl State.takeChar s.noteStop) :=
  congrArg Host.Outcome.next (if_neg (Bool.eq_false_iff.mp h))

/-- Characters that complete no telegram leave nothing but the assembler, and a character after a long gap starts afresh. -/
theorem takeChars_then_gap {s : State} (hr : s.rstActive = false) {cs : List RxChar} {a b : Assembler} (h : (feed a cs).2 = [])
    {c : RxChar} (hc : 352 < c.gap) (rest : List RxChar) :
    (cs ++ c :: rest).foldl State.takeChar (s.setAssembler a) = (c :: rest).foldl State.takeChar (s.setAssembler b) := by
  rw [List.foldl_append, takeChars_feed hr cs a h, List.foldl_cons, List.foldl_cons,
    takeChar_congr hr ((assemble_after_gap hc _).trans (assemble_after_gap hc b).symm)]

/-- Settles O12: the rows of R5, each by what the assembler makes of its characters. -/
theorem badCharacterDiscardsItsTelegram : Obligations.BadCharacterDiscardsItsTelegram := by
  intro s hr ha
  have hr' : s.noteStop.rstActive = false := hr
  have leaves {cs : List RxChar} {a : Assembler} (h : feed .awaitAddress cs = (a, [])) :
      exec (.telegramFail cs) s = .next (s.noteStop.setAssembler a) := by
    have := takeChars_feed hr' cs .awaitAddress (by rw [h])
    rw [noteStop_awaiting ha, h] at this
    rw [exec_telegramFail hr, this]
  refine ⟨fun t i data ht hi => ?bad, fun address kind length rest hl hg => ?length, fun t check ht hne => ?check,
    fun t i c rest ht hi hc => ?gap, fun c => leaves rfl, fun c chars hg => ?short, fun dropped c rest hg hc => ?hunt,
    fun chars => rfl⟩
  case bad =>
    by_cases h2 : i = 2
    · subst h2
      rw [if_pos rfl]
      refine leaves ?_
      rw [telegramBytes_eq]
      exact feed_bad_length (c2 := { gap := 0, data := data, bad := true }) (Nat.zero_le _) (Nat.zero_le _) (.inl rfl)
        goodChars_gap
    · rw [if_neg h2]
      exact leaves (feed_bad_character (sized_telegram ht) h2 (by simpa [goodChars, telegramBytes_length] using hi) data)
  case length => exact leaves (feed_bad_length (Nat.zero_le _) (Nat.zero_le _) (.inr hl) hg)
  case check =>
    rw [telegramBytes_take] at hne ⊢
    exact leaves (feed_bad_check ht (checkOf_eq_foldl _ ▸ hne))
  case gap =>
    have part : (feed .awaitAddress (goodChars ((telegramBytes t).take i))).2 = [] := by
      rw [goodChars, List.map_take]
      exact feed_take_noTelegram (sized_telegram ht) (by simpa [goodChars, telegramBytes_length] using hi)
    rw [exec_telegramFail hr, exec_telegramFail hr, ← noteStop_awaiting ha]
    exact congrArg _ (takeChars_then_gap hr' part hc rest)
  case short =>
    have first : s.noteStop.takeChar c = s.noteStop.takeChar { c with gap := 0 } := by
      rw [← noteStop_awaiting ha, takeChar_setAssembler hr', takeChar_setAssembler hr']
      rfl
    rw [exec_telegramFail hr, exec_telegramFail hr, List.map_cons, List.foldl_cons, List.foldl_cons, first,
      takeChars_short_gaps chars _ hg]
  case hunt =>
    have drop := feed_hunt dropped hg
    have hunting : (s.setAssembler .hunt).noteStop = s.noteStop.setAssembler .hunt := rfl
    rw [exec_telegramFail (s := s.setAssembler .hunt) hr, exec_telegramFail (s := s.setAssembler .hunt) hr,
      exec_telegramFail hr, hunting, takeChars_feed hr' dropped .hunt (by rw [drop]), drop]
    refine ⟨rfl, congrArg _ ?_⟩
    rw [takeChars_then_gap hr' (b := .awaitAddress) (by rw [drop]) hc, noteStop_awaiting ha]

end Sys2Proof.Proofs.Assembly
end

section
/-! The field close and the launch: what their works may write, and what each leaves (sections 1.5 and 1.7, R10, R17). -/

namespace Sys2Proof.Proofs.Closing

open Sys2Proof Sys2Proof.Machine Sys2Proof.Proofs.Basics Sys2Proof.Proofs.Watches

/-! ### The placed list (R16, R69) -/

theorem runTask_placed (s : State) (t : Task) :
    (s.runTask t).state.round.placed = s.round.placed ∨ (s.runTask t).state.round.placed = [] := by
  rcases Tasks.runTask_writes s t with e | ⟨c, -, ⟨-, -, hb, -⟩ | ⟨-, -, u, r, -, -, e⟩⟩
  · rw [e]; exact .inl rfl
  · exact .inl hb.placed
  · rw [e]; exact .inr rfl

theorem carryOut_placed_nil {s : State} (h : s.round.placed = []) (tasks : List Task) : (s.carryOut tasks).round.placed = [] :=
  carryOut_induct (fun u => u.round.placed = []) (fun u t hu => (runTask_placed u t).elim (·.trans hu) id) s tasks h

/-! ### The frame of the works of a field close -/

/-- At most what the works of a field close write differs: besides what the handing on writes, the watch bank, the lines and
the count of free values; the chain records keep what is tracked. -/
def Closes (s t : State) : Prop :=
  (∀ n, (t.chain n).tracked = (s.chain n).tracked)
    ∧ t = { s with
        round := { s.round with sets := t.round.sets, placed := t.round.placed, notices := t.round.notices }
        chains := t.chains
        cues := { s.cues with
          live := t.cues.live, preset := t.cues.preset, swapPending := t.cues.swapPending, updateField := t.cues.updateField }
        take := t.take, hold := t.hold
        groupA := { s.groupA with holder := t.groupA.holder, causes := t.groupA.causes, inFlight := t.groupA.inFlight }
        groupB := { s.groupB with holder := t.groupB.holder, causes := t.groupB.causes, inFlight := t.groupB.inFlight }
        watches := t.watches
        alarms := { s.alarms with pending := t.alarms.pending, inService := t.alarms.inService, alm := t.alarms.alm }
        snaps := { s.snaps with store := t.snaps.store, almostFull := t.snaps.almostFull }
        choices := t.choices }

theorem Closes.of {s : State} (x : List ActionSet) (y : List Placed) (n : List Notice) (v : Vector ChainRecord 8)
    (l p : List Cue) (w : Bool) (f : Vector (Option Field) 8) (tk hd : LineFilter) (ha : Option ChainNo) (ca : AirCauses)
    (fa : Option InFlight) (hb : Option ChainNo) (cb : AirCauses) (fb : Option InFlight) (wb : WatchBank)
    (q : Vector (Option PendingRecord) 42) (i : List Entry) (a : Bool) (st : List Snapshot) (af : Bool) (ch : Nat)
    (hc : ∀ n : ChainNo, v[n].tracked = (s.chain n).tracked) : Closes s { s with
      round := { s.round with sets := x, placed := y, notices := n }, chains := v,
      cues := { s.cues with live := l, preset := p, swapPending := w, updateField := f }, take := tk, hold := hd,
      groupA := { s.groupA with holder := ha, causes := ca, inFlight := fa },
      groupB := { s.groupB with holder := hb, causes := cb, inFlight := fb }, watches := wb,
      alarms := { s.alarms with pending := q, inService := i, alm := a },
      snaps := { s.snaps with store := st, almostFull := af }, choices := ch } := ⟨hc, rfl⟩

theorem Closes.elim {s t : State} (h : Closes s t) :
    ∃ x y n v l p w f tk hd ha ca fa hb cb fb wb q i a st af ch,
      (∀ n : ChainNo, v[n].tracked = (s.chain n).tracked) ∧ t = { s with
        round := { s.round with sets := x, placed := y, notices := n }, chains := v,
        cues := { s.cues with live := l, preset := p, swapPending := w, updateField := f }, take := tk, hold := hd,
        groupA := { s.groupA with holder := ha, causes := ca, inFlight := fa },
        groupB := { s.groupB with holder := hb, causes := cb, inFlight := fb }, watches := wb,
        alarms := { s.alarms with pending := q, inService := i, alm := a },
        snaps := { s.snaps with store := st, almostFull := af }, choices := ch } :=
  ⟨_, _, _, _, _, _, _, _, _, _, _, _, _, _, _, _, _, _, _, _, _, _, _, h⟩

theorem Closes.refl (s : State) : Closes s s := ⟨fun _ => rfl, rfl⟩

theorem Closes.trans {s t u : State} (h : Closes s t) (k : Closes t u) : Closes s u := by
  obtain ⟨_, _, _, _, _, _, _, _, _, _, _, _, _, _, _, _, _, _, _, _, _, _, _, hc, rfl⟩ := h.elim
  obtain ⟨x, y, n, v, l, p, w, f, tk, hd, ha, ca, fa, hb, cb, fb, wb, q, i, a, st, af, ch, kc, rfl⟩ := k.elim
  exact .of x y n v l p w f tk hd ha ca fa hb cb fb wb q i a st af ch (fun m => (kc m).trans (hc m))

/-- The handing on stays within the frame. -/
theorem HandsOn.closes {s t : State} (h : HandsOn s t) : Closes s t := by
  obtain ⟨only, tracked⟩ := h
  obtain ⟨_, _, _, _, _, _, _, _, _, _, _, _, _, _, _, _, _, _, _, rfl⟩ := only.elim
  exact ⟨tracked, rfl⟩

theorem CuesOnly.closes {s t : State} (h : CuesOnly s t) : Closes s t := HandsOn.closes h.handsOn

theorem AlarmsOnly.closes {s t : State} (h : AlarmsOnly s t) : Closes s t := HandsOn.closes h.handsOn

section
variable {s t : State} (h : Closes s t)
include h

theorem Closes.tracked (n : ChainNo) : (t.chain n).tracked = (s.chain n).tracked := h.1 n
theorem Closes.port : t.port = s.port := by rw [h.2]
theorem Closes.pins : t.pins = s.pins := by rw [h.2]
theorem Closes.now : t.now = s.now := by rw [h.2]
theorem Closes.phase : t.round.phase = s.round.phase := by rw [h.2]
theorem Closes.fieldCount : t.round.fieldCount = s.round.fieldCount := by rw [h.2]
theorem Closes.sync : t.round.sync = s.round.sync := by rw [h.2]
theorem Closes.keptInterval : t.round.keptInterval = s.round.keptInterval := by rw [h.2]
theorem Closes.lastLaunch : t.round.lastLaunch = s.round.lastLaunch := by rw [h.2]
theorem Closes.reference : t.round.reference = s.round.reference := by rw [h.2]
theorem Closes.flywheel : t.round.flywheel = s.round.flywheel := by rw [h.2]
theorem Closes.broken : t.round.broken = s.round.broken := by rw [h.2]
theorem Closes.dwellCount : t.snaps.dwellCount = s.snaps.dwellCount := by rw [h.2]
theorem Closes.readout : t.snaps.readout = s.snaps.readout := by rw [h.2]
theorem Closes.snapSettings : t.snaps.settings = s.snaps.settings := by rw [h.2]

/-- The works of a field close keep the configuration of every block. -/
theorem Closes.configurationKept : ConfigurationKept s t := by
  refine ⟨fun n => ?_, by rw [h.2], by rw [h.2], fun g => ?_, by rw [h.2], by rw [h.2], by rw [h.2], by rw [h.2], by rw [h.2],
    by rw [h.2], by rw [h.2]⟩
  · have := congrArg (fun r : ChainRecord => r.config) (h.tracked n)
    exact this
  · rw [h.2]; cases g <;> rfl

end

theorem ConfigurationKept.trans {s t u : State} (h : ConfigurationKept s t) (k : ConfigurationKept t u) :
    ConfigurationKept s u := by
  obtain ⟨h1, h2, h3, h4, h5, h6, h7, h8, h9, h10, h11⟩ := h
  obtain ⟨k1, k2, k3, k4, k5, k6, k7, k8, k9, k10, k11⟩ := k
  exact ⟨fun n => (k1 n).trans (h1 n), k2.trans h2, k3.trans h3, fun g => (k4 g).trans (h4 g), k5.trans h5, k6.trans h6,
    k7.trans h7, k8.trans h8, k9.trans h9, k10.trans h10, k11.trans h11⟩

/-! ### The works (R82, R112, R122, R123) -/

theorem foldl_closes {α : Type} {act : State → α → State} (h : ∀ u a, Closes u (act u a)) :
    ∀ (l : List α) (s : State), Closes s (l.foldl act s)
  | [], s => .refl s
  | a :: l, s => (h s a).trans (foldl_closes h l _)

theorem sampleWatch_closes (s : State) (k : WatchNo) : Closes s (s.sampleWatch k) := by
  have set (w : Watch) : Closes s (s.setWatch k w) := ⟨fun _ => rfl, rfl⟩
  unfold State.sampleWatch
  dsimp only
  split
  · exact (set _).trans (AlarmsOnly.closes (changeWatch_alarmsOnly ..))
  · exact .refl s

theorem settleSeen_closes (s : State) : Closes s s.settleSeen := by
  unfold State.settleSeen
  refine foldl_closes (fun u n => ?_) _ s
  exact ⟨fun _ => rfl, rfl⟩

theorem watchWork_closes (s : State) : Closes s s.watchWork := (foldl_closes sampleWatch_closes _ s).trans (settleSeen_closes _)

theorem sampleLines_closes (s : State) : Closes s s.sampleLines := ⟨fun _ => rfl, rfl⟩

theorem lineWork_cuesOnly (s : State) : CuesOnly s.sampleLines s.lineWork := by
  unfold State.lineWork
  split
  · exact giveTake_cuesOnly _
  · exact .refl _

theorem lineWork_closes (s : State) : Closes s s.lineWork := (sampleLines_closes s).trans (CuesOnly.closes (lineWork_cuesOnly s))

theorem runClose_closes (f : Field) : ∀ (order : List CloseWork) (s : State) (skip : List CueId),
    Closes s (runClose f order s skip)
  | [], s, _ => .refl s
  | .cues :: rest, s, skip => (CuesOnly.closes (cueWork_cuesOnly s f skip)).trans (runClose_closes f rest _ _)
  | .watches :: rest, s, _ => (watchWork_closes s).trans (runClose_closes f rest _ _)
  | .lines :: rest, s, _ => (lineWork_closes s).trans (runClose_closes f rest _ _)

/-- The works are carried out in one of the six orders, after which free values may have been drawn (log 4). -/
theorem closeWorks_order (s : State) (f : Field) : ∃ order choices, order.Perm [.cues, .lines, .watches]
    ∧ s.closeWorks f = runClose f order { s with choices := choices } [] := by
  have perm : ∀ o ∈ closeOrders, o.Perm [.cues, .lines, .watches] := by decide
  unfold State.closeWorks
  dsimp only
  split
  · exact ⟨_, s.choices, .refl _, rfl⟩
  · refine ⟨_, s.choices + 1, perm _ ?_, rfl⟩
    rw [List.getD_eq_getElem _ _ (show Config.closeOrder s.choices % 6 < closeOrders.length from Nat.mod_lt _ (by decide))]
    exact List.getElem_mem _

theorem closeWorks_closes (s : State) (f : Field) : Closes s (s.closeWorks f) := by
  obtain ⟨order, choices, -, h⟩ := closeWorks_order s f
  rw [h]
  have drawn : Closes s { s with choices := choices } := ⟨fun _ => rfl, rfl⟩
  exact drawn.trans (runClose_closes ..)

/-- The dwell counter after a field close (R180). -/
def nextDwell (b : SnapshotBuffer) : Nat :=
  if b.settings.periodic = true ∧ b.dwellCount + 1 < b.settings.dwell then b.dwellCount + 1 else 0

/-- The state with the dwell counter so. -/
def withDwell (s : State) (n : Nat) : State := { s with snaps := { s.snaps with dwellCount := n } }

/-- The state with the broken count so. -/
def withBroken (s : State) (n : Nat) : State := { s with round := { s.round with broken := n } }

theorem dwellWork_alarmsOnly (s : State) : AlarmsOnly (withDwell s (nextDwell s.snaps)) s.dwellWork := by
  unfold State.dwellWork nextDwell SnapshotBuffer.dwellReached
  by_cases hp : s.snaps.settings.periodic = true
  · by_cases hd : s.snaps.settings.dwell ≤ s.snaps.dwellCount + 1
    · rw [if_neg (fun h => absurd h.2 (Nat.not_lt.mpr hd)), if_pos (by simp [hp, hd])]
      exact requestSnapshot_alarmsOnly ..
    · rw [if_pos ⟨hp, Nat.lt_of_not_le hd⟩, if_neg (by simp [hd]), if_pos hp]
      exact .refl _
  · rw [if_neg (fun h => hp h.1), if_neg (by simp [hp]), if_neg hp]
    exact .refl _

/-- The broken count after a field close (R18). -/
def nextBroken (n : Nat) (complete : Bool) : Nat := if complete then 0 else min 3 (n + 1)

theorem countBroken_alarmsOnly (s : State) (b : Bool) :
    AlarmsOnly (withBroken s (nextBroken s.round.broken b)) (s.countBroken b) := by
  unfold State.countBroken nextBroken
  by_cases hb : b = true
  · rw [if_pos hb, if_pos hb]
    exact withdraw_alarmsOnly ..
  · rw [if_neg hb, if_neg hb]
    by_cases h2 : s.round.broken = 2
    · rw [if_pos h2, h2]
      exact raise_alarmsOnly ..
    · rw [if_neg h2]
      exact .refl _

theorem Closes.withBroken {s t : State} (h : Closes s t) (n : Nat) : Closes (withBroken s n) (withBroken t n) := by
  obtain ⟨_, _, _, _, _, _, _, _, _, _, _, _, _, _, _, _, _, _, _, _, _, _, _, hc, rfl⟩ := h.elim
  exact ⟨hc, rfl⟩

theorem Closes.withDwell {s t : State} (h : Closes s t) (n : Nat) : Closes (withDwell s n) (withDwell t n) := by
  obtain ⟨_, _, _, _, _, _, _, _, _, _, _, _, _, _, _, _, _, _, _, _, _, _, _, hc, rfl⟩ := h.elim
  exact ⟨hc, rfl⟩

/-! ### The settling (R36) -/

theorem settleRecord_config (r : ChainRecord) : (settleRecord r).record.config = r.config := by
  have coast : (r.coast).config = r.config := rfl
  unfold settleRecord
  split
  · rfl
  · split
    · rfl
    · dsimp only
      split <;> split <;> split <;> rfl

theorem settleRecords_chain (s : State) (f : Field) (n : ChainNo) :
    (s.settleRecords f).chain n = (settleRecord (s.chain n)).record := by
  simp [State.chain, State.settleRecords]

theorem settleRecords_configurationKept (s : State) (f : Field) : ConfigurationKept s (s.settleRecords f) := by
  refine ⟨fun n => ?_, rfl, rfl, fun g => by cases g <;> rfl, rfl, rfl, rfl, rfl, rfl, rfl, rfl⟩
  rw [settleRecords_chain, settleRecord_config]

theorem settleChains_closes (s : State) (f : Field) : Closes (s.settleRecords f) (s.settleChains f) :=
  foldl_closes (fun u n => HandsOn.closes (handSettled_handsOn u n ..)) _ _

/-- The state that a field close makes before its works: the records settled, the broken count and the dwell counter counted. -/
def closed (s : State) (f : Field) (b : Bool) : State :=
  withDwell (withBroken (s.settleRecords f) (nextBroken s.round.broken b)) (nextDwell s.snaps)

theorem fieldClose_closes (s : State) (f : Field) (b : Bool) : Closes (closed s f b) (s.fieldClose f b) := by
  have settled := settleChains_closes s f
  have broken := AlarmsOnly.closes (countBroken_alarmsOnly (s.settleChains f) b)
  rw [settled.broken] at broken
  have worked := ((settled.withBroken _).trans broken).trans (closeWorks_closes _ f)
  have dwell := AlarmsOnly.closes (dwellWork_alarmsOnly (((s.settleChains f).countBroken b).closeWorks f))
  have snaps : nextDwell (((s.settleChains f).countBroken b).closeWorks f).snaps = nextDwell s.snaps := by
    rw [nextDwell, worked.dwellCount, worked.snapSettings]
    rfl
  rw [snaps] at dwell
  exact (worked.withDwell _).trans dwell

theorem closed_configurationKept (s : State) (f : Field) (b : Bool) : ConfigurationKept s (closed s f b) := by
  have h := settleRecords_configurationKept s f
  exact ⟨h.1, rfl, rfl, fun g => by cases g <;> rfl, rfl, rfl, rfl, rfl, rfl, rfl, rfl⟩

/-! ### The launch (R10, R11) -/

theorem reportFixing_cuesOnly (s : State) : CuesOnly s s.reportFixing := by
  have defer : ∀ (l : List CueId) (u : State), CuesOnly u (l.foldl State.deferCue u) := by
    intro l
    induction l with
    | nil => exact fun u => .refl u
    | cons i l ih => exact fun u => (deferCue_cuesOnly u i).trans (ih _)
  exact (judgeAlmostFull_alarmsOnly s).cuesOnly.trans (defer ..)

theorem launch_unbroken {s : State} (h : s.round.phase.unfinished = false) : s.launch = s.fixRound.reportFixing := by
  simp [State.launch, h]

theorem launch_broken {s : State} (h : s.round.phase.unfinished = true) :
    s.launch = s.fixRound.reportFixing.fieldClose s.fieldCount false := by
  simp [State.launch, h]

/-- What a launch leaves of the round master and of the configuration, whatever became of the round before (R10, R11). -/
structure Launched (s t : State) : Prop where
  fieldCount : t.round.fieldCount = s.round.fieldCount + 1
  phase : t.round.phase = .awaited
  lastLaunch : t.round.lastLaunch = some s.now
  sync : t.round.sync = s.round.sync
  keptInterval : t.round.keptInterval = s.round.keptInterval
  reference : t.round.reference = s.round.reference
  flywheel : t.round.flywheel = s.round.flywheel
  now : t.now = s.now
  configuration : ConfigurationKept s t

/-- Every cell takes five bytes (section 12.4). -/
theorem cellsRemaining_length (b : SnapshotBuffer) : ∀ c ∈ b.cellsRemaining, c.length = 5 := by
  intro c hc
  obtain ⟨x, -, hx⟩ := List.mem_flatMap.mp (List.mem_of_mem_drop hc)
  rcases List.mem_cons.mp hx with rfl | hx
  · rfl
  · obtain ⟨y, -, rfl⟩ := List.mem_map.mp hx
    rfl

theorem buildCells_chars (b : SnapshotBuffer) (k : Nat) : telegramChars (b.buildCells k).telegram ≤ 6 + 5 * k := by
  have five : ((b.cellsRemaining.take k).map List.length).sum ≤ (b.cellsRemaining.take k).length * 5 := by
    refine List.sum_le_card_nsmul _ 5 ?_ |>.trans (by simp)
    intro n hn
    obtain ⟨c, hc, rfl⟩ := List.mem_map.mp hn
    exact (cellsRemaining_length b c (List.mem_of_mem_take hc)).le
  have few : (b.cellsRemaining.take k).length ≤ k := List.length_take_le ..
  simp only [SnapshotBuffer.buildCells, snapshotDataTelegram, ownTelegram, telegramChars, List.length_append, List.length_cons,
    List.length_nil, List.length_flatten]
  omega

/-- A build takes cells from the store and moves the readout on, and its telegram is SNAPSHOT DATA of the space given (R184). -/
theorem build_spec {b : SnapshotBuffer} {space : Nat} {x : Built} (h : b.build space = some x) :
    x.telegram.kind = kindSnapshotData ∧ telegramChars x.telegram ≤ space ∧ x.buffer.settings = b.settings := by
  have empty (n : Nat) (c : Bool) : telegramChars (snapshotDataTelegram n [] true c) = 6 := rfl
  unfold SnapshotBuffer.build at h
  split at h
  · cases h
  · split at h
    · next h6 => cases h; exact ⟨rfl, h6, rfl⟩
    · cases h
  · split at h
    · cases h
    · next h6 =>
      split at h
      · cases h; exact ⟨rfl, not_lt.mp h6, rfl⟩
      · dsimp only at h
        split at h
        · cases h
        · next hk =>
          cases h
          have chars := buildCells_chars b (min 4 (min b.cellsRemaining.length ((space - 6) / 5)))
          exact ⟨rfl, chars.trans (by omega), rfl⟩

theorem requestData_settings (b : SnapshotBuffer) (space : Nat) : (requestData b space).2.1.settings = b.settings := by
  unfold requestData
  split
  · rfl
  · next x h => exact (build_spec h).2.2

theorem fix_buffer_settings (s : State) : s.fix.buffer.settings = s.snaps.settings := by
  have second (d : List Telegram × SnapshotBuffer × Nat) :
      (if d.1.isEmpty || 0 = d.2.2 then ([], d.2.1, d.2.2) else requestData d.2.1 d.2.2).2.1.settings = d.2.1.settings := by
    split
    · rfl
    · exact requestData_settings ..
  exact (second _).trans (requestData_settings ..)

theorem fixRound_launched (s : State) : Launched s s.fixRound :=
  ⟨rfl, rfl, rfl, rfl, rfl, rfl, rfl, rfl, fun _ => rfl, rfl, rfl, fun g => by cases g <;> rfl, rfl, rfl,
    fix_buffer_settings s, rfl, rfl, rfl, rfl⟩

theorem Launched.closes {s t u : State} (h : Launched s t) (k : Closes t u) : Launched s u :=
  ⟨k.fieldCount.trans h.fieldCount, k.phase.trans h.phase, k.lastLaunch.trans h.lastLaunch, k.sync.trans h.sync,
    k.keptInterval.trans h.keptInterval, k.reference.trans h.reference, k.flywheel.trans h.flywheel, k.now.trans h.now,
    ConfigurationKept.trans h.configuration k.configurationKept⟩

theorem launch_launched (s : State) : Launched s s.launch := by
  have fixed := (fixRound_launched s).closes (CuesOnly.closes (reportFixing_cuesOnly s.fixRound))
  cases h : s.round.phase.unfinished with
  | false => rw [launch_unbroken h]; exact fixed
  | true =>
    rw [launch_broken h]
    have settled : Launched s (closed s.fixRound.reportFixing s.fieldCount false) :=
      { fixed with configuration := ConfigurationKept.trans fixed.configuration (closed_configurationKept ..) }
    exact settled.closes (fieldClose_closes ..)

end Sys2Proof.Proofs.Closing
end

section
/-! Field sync and the flywheel: an arrival by the table of R7, an expiry by R8, and the idle sample period that brings one
(section 1.4). -/

namespace Sys2Proof.Proofs.Timing

open Sys2Proof Sys2Proof.Machine Sys2Proof.Proofs.Basics Sys2Proof.Proofs.Closing

/-! ### An idle sample period -/

/-- With RST inactive before and after, the pins are sampled and what falls on the period is carried out. -/
theorem step_samples {s : State} {p : Pins} {rest : List Pins} (hp : s.pending = []) (hi : s.inputs = p :: rest)
    (ha : s.rstActive = false) (hr : p.rst = true) :
    step s = .next { s.elapse 1 with pins := p, inputs := rest }.sampleAll := by
  have hn : (s.elapse 1).nextPins = { s.elapse 1 with pins := p, inputs := rest } := nextPins_some hi
  have hs : s.pins.rst = true := by simpa [State.rstActive] using ha
  rw [step_idle hp, State.tick, hn]
  simp [hr, hs, State.rstActive]

theorem idle_port {p : LoopPort} (hp : p.phase = .waiting) (hf : p.filtered = true) (hl : p.lastSample = true) :
    { p with filtered := true, lastSample := true, phase := .waiting } = p := by
  cases p
  simp_all

/-- A receiver that is waiting on an idle line goes on waiting (R2). -/
theorem sampleReceiver_idle {s : State} (hp : s.port.phase = .waiting) (hf : s.port.filtered = true)
    (hl : s.port.lastSample = true) (hx : s.pins.lrx = true) : s.sampleReceiver = (s, none) := by
  have step (gap : Nat) : rxStep s.port.phase true false gap = { phase := .waiting } := by rw [hp]; rfl
  simp only [State.sampleReceiver, hf, hl, hx, twoSample, if_true, Bool.not_true, Bool.and_false, step, Option.isSome_none,
    Bool.false_eq_true, if_false, idle_port hp hf hl]

/-- With the receiver idle only FLD and the flywheel can bring something on a sample period (R7, R8). -/
theorem sampleAll_idle {s : State} (hp : s.port.phase = .waiting) (hf : s.port.filtered = true) (hl : s.port.lastSample = true)
    (hx : s.pins.lrx = true) : s.sampleAll = s.sampleFld.1.happenAll
      ((if s.sampleFld.2 then [.sync] else []) ++ if s.sampleFld.1.flywheelDue then [.expiry] else []) := by
  simp only [State.sampleAll, sampleReceiver_idle hp hf hl hx, Option.map_none, Option.toList_none, List.append_nil]

/-- FLD stays high (R7). -/
theorem sampleFld_high {s : State} (hf : s.round.fldFiltered = true) (hs : s.round.fldSample = true) (hx : s.pins.fld = true) :
    s.sampleFld = (s, false) := by
  have round : { s.round with fldFiltered := true, fldSample := true } = s.round := by
    generalize s.round = r at hf hs
    cases r
    simp_all
  simp [State.sampleFld, twoSample, hf, hs, hx, round]

/-- A first low sample of FLD is none yet (R2, R7). -/
theorem sampleFld_low {s : State} (hf : s.round.fldFiltered = true) (hs : s.round.fldSample = true) (hx : s.pins.fld = false) :
    s.sampleFld = ({ s with round := { s.round with fldSample := false } }, false) := by
  have round : { s.round with fldFiltered := true, fldSample := false } = { s.round with fldSample := false } := by
    generalize s.round = r at hf
    cases r
    simp_all
  have level : twoSample s.round.fldFiltered s.round.fldSample s.pins.fld = true := by rw [hf, hs, hx]; rfl
  rw [State.sampleFld, level, hf, hx, round]
  rfl

/-- A second low sample of FLD is its fall (R2, R7). -/
theorem sampleFld_falls {s : State} (hf : s.round.fldFiltered = true) (hs : s.round.fldSample = false) (hx : s.pins.fld = false) :
    s.sampleFld = ({ s with round := { s.round with fldFiltered := false } }, true) := by
  have round : { s.round with fldFiltered := false, fldSample := false } = { s.round with fldFiltered := false } := by
    generalize s.round = r at hs
    cases r
    simp_all
  have level : twoSample s.round.fldFiltered s.round.fldSample s.pins.fld = false := by rw [hf, hs, hx]; rfl
  rw [State.sampleFld, level, hf, hx, round]
  rfl

/-! ### What a launch reads (R7, R8) -/

theorem flywheelDue_iff (s : State) : s.flywheelDue = true ↔
    s.rstActive = false ∧ ∃ i l, s.round.keptInterval = some i ∧ s.round.lastLaunch = some l ∧ 5 * i ≤ 4 * (s.now - l) := by
  unfold State.flywheelDue
  cases s.round.keptInterval <;> cases s.round.lastLaunch <;> simp

theorem syncIgnored_iff (s : State) : s.syncIgnored = true ↔ s.round.sync = .locked ∧ ∃ i l,
    s.round.keptInterval = some i ∧ s.round.lastLaunch = some l ∧ 4 * (s.now - l) < 3 * i := by
  unfold State.syncIgnored
  cases s.round.sync <;> cases s.round.keptInterval <;> cases s.round.lastLaunch <;> simp

theorem spacing_some {s : State} {r : Nat} (h : s.round.reference = some r) (h1 : 1 ≤ s.now - r) (h2 : s.now - r ≤ 1048575) :
    s.spacing = some (s.now - r) := by
  simp only [State.spacing, h]
  exact if_pos ⟨h1, h2⟩

theorem spacing_none {s : State} (h : ¬ ∃ r, s.round.reference = some r ∧ 1 ≤ s.now - r ∧ s.now - r ≤ 1048575) :
    s.spacing = none := by
  unfold State.spacing
  cases hr : s.round.reference with
  | none => rfl
  | some r => exact if_neg fun hd => h ⟨r, hr, hd.1, hd.2⟩

/-- The table of R7 for a sync accepted in LEARNING or LOCKED. -/
theorem syncAccepted_learnt {s : State} (h : s.round.sync = .learning ∨ s.round.sync = .locked) {i : Nat} (hi : s.spacing = some i) :
    s.syncAccepted = (.locked, some i) := by
  rcases h with h | h <;> simp only [State.syncAccepted, h, hi]

theorem syncAccepted_unlearnt {s : State} (h : s.round.sync = .learning ∨ s.round.sync = .locked) (hi : s.spacing = none) :
    s.syncAccepted = (s.round.sync, s.round.keptInterval) := by
  rcases h with h | h <;> simp only [State.syncAccepted, h, hi]

theorem syncAccepted_first {s : State} (h : s.round.sync = .unlocked ∨ s.round.sync = .lost) :
    s.syncAccepted = (.learning, s.round.keptInterval) := by
  rcases h with h | h <;> simp only [State.syncAccepted, h]

/-! ### An accepted sync (R7) -/

theorem fieldSync_ignored {s : State} (h : s.syncIgnored = true) : s.fieldSync = s := by
  simp [State.fieldSync, h]

theorem fieldSync_accepted {s : State} (ha : s.rstActive = false) (h : s.syncIgnored = false) :
    s.fieldSync = (s.noteSync.withdraw srcSyncLoss).launch := by
  simp [State.fieldSync, ha, h]

/-- The round master's state after an accepted sync, and the configuration, through the launch that it brings (R7, R10). -/
theorem accepted_launched (s : State) : Launched s.noteSync (s.noteSync.withdraw srcSyncLoss).launch := by
  have kept := launch_launched (s.noteSync.withdraw srcSyncLoss)
  have only := AlarmsOnly.closes (withdraw_alarmsOnly s.noteSync srcSyncLoss)
  exact ⟨kept.fieldCount.trans (congrArg (· + 1) only.fieldCount), kept.phase, kept.lastLaunch.trans (congrArg some only.now),
    kept.sync.trans only.sync, kept.keptInterval.trans only.keptInterval, kept.reference.trans only.reference,
    kept.flywheel.trans only.flywheel, kept.now.trans only.now, ConfigurationKept.trans only.configurationKept kept.configuration⟩

theorem noteSync_configurationKept (s : State) : ConfigurationKept s s.noteSync :=
  ⟨fun _ => rfl, rfl, rfl, fun g => by cases g <;> rfl, rfl, rfl, rfl, rfl, rfl, rfl, rfl⟩

theorem elapse_configurationKept (s : State) (take hold : Contact) (n : Nat) :
    ConfigurationKept s ((s.setContacts take hold).elapse n) :=
  ⟨fun _ => rfl, rfl, rfl, fun g => by cases g <;> rfl, rfl, rfl, rfl, rfl, rfl, rfl, rfl⟩

theorem contactLevel_levelContact (level : Bool) : contactLevel (levelContact level) = level := by cases level <;> rfl

/-- Settles O15: the table of R7 is what the sync leaves for the launch, and an idle period that finds FLD falling is the command. -/
theorem fieldSyncFollowsItsTable : Obligations.FieldSyncFollowsItsTable := by
  refine ⟨fun s n take hold ha => ?command, fun s p rest hp hi ha hr hf hx hph hfl hl hlx hdue => ?idle⟩
  case command =>
    intro now early learnt
    have ignored : ((s.setContacts take hold).elapse n).syncIgnored = true ↔ early := syncIgnored_iff _
    refine ⟨fun h => congrArg Host.Outcome.next (fieldSync_ignored (ignored.mpr h)), fun h => ?_⟩
    have accepted := fieldSync_accepted (s := (s.setContacts take hold).elapse n) ha
      (Bool.eq_false_iff.mpr fun e => h (ignored.mp e))
    have done := accepted_launched ((s.setContacts take hold).elapse n)
    refine ⟨_, congrArg Host.Outcome.next accepted, done.now, done.fieldCount, done.phase, done.reference, done.lastLaunch,
      done.flywheel, fun hs => ?_, fun r hs hr => ?_, fun hs hr => ?_, ?_⟩
    · have := syncAccepted_first (s := (s.setContacts take hold).elapse n) hs
      exact ⟨done.sync.trans (congrArg Prod.fst this), done.keptInterval.trans (congrArg Prod.snd this)⟩
    · obtain ⟨href, h1, h2⟩ := hr
      have := syncAccepted_learnt (s := (s.setContacts take hold).elapse n) hs (spacing_some href h1 h2)
      exact ⟨done.sync.trans (congrArg Prod.fst this), done.keptInterval.trans (congrArg Prod.snd this)⟩
    · have := syncAccepted_unlearnt (s := (s.setContacts take hold).elapse n) hs (spacing_none hr)
      exact ⟨done.sync.trans (congrArg Prod.fst this), done.keptInterval.trans (congrArg Prod.snd this)⟩
    · exact ConfigurationKept.trans (ConfigurationKept.trans (elapse_configurationKept s take hold n)
        (noteSync_configurationKept _)) done.configuration
  case idle =>
    have idle := sampleAll_idle (s := { s.elapse 1 with pins := p, inputs := rest }) hph hfl hl hlx
    have notDue (v : State) (hk : v.round.keptInterval = s.round.keptInterval) (hll : v.round.lastLaunch = s.round.lastLaunch)
        (hn : v.now = s.now + 1) : v.flywheelDue = false := by
      refine Bool.eq_false_iff.mpr fun e => ?_
      obtain ⟨-, i, l, h1, h2, h3⟩ := (flywheelDue_iff v).mp e
      exact hdue ⟨i, l, hk ▸ h1, hll ▸ h2, hn ▸ h3⟩
    refine ⟨fun hs => ?_, fun hs => ?_⟩
    · have low := sampleFld_low (s := { s.elapse 1 with pins := p, inputs := rest }) hf hs hx
      rw [step_samples hp hi ha hr, idle, low]
      dsimp only
      rw [notDue _ (by rfl) (by rfl) (by rfl)]
      rfl
    · have falls := sampleFld_falls (s := { s.elapse 1 with pins := p, inputs := rest }) hf hs hx
      rw [step_samples hp hi ha hr, idle, falls]
      dsimp only
      rw [notDue _ (by rfl) (by rfl) (by rfl)]
      change Host.Outcome.next (State.fieldSync _) = Host.Outcome.next (State.fieldSync _)
      simp only [State.setContacts, contactLevel_levelContact]
      rfl

/-! ### A flywheel expiry (R8, R9) -/

theorem flywheel_undue {s : State} (h : s.flywheelDue = false) : s.flywheel = s := by simp [State.flywheel, h]

/-- The state of a flywheel round before its count (R8). -/
def flywheelRound (s : State) : State := { s.launch with round := { s.launch.round with reference := none } }

theorem flywheel_due {s : State} (h : s.flywheelDue = true) : s.flywheel = (flywheelRound s).countFlywheel := by
  simp [State.flywheel, h, flywheelRound]

/-- Counting a flywheel round writes the count, the sync state and alarms (R8, R9). -/
theorem countFlywheel_alarmsOnly (s : State) : AlarmsOnly { s with round := { s.round with
    flywheel := if s.round.flywheel = 2 then 3 else min 3 (s.round.flywheel + 1)
    sync := if s.round.flywheel = 2 then .lost else s.round.sync } } s.countFlywheel := by
  unfold State.countFlywheel
  by_cases h : s.round.flywheel = 2
  · rw [if_pos h, if_pos h, if_pos h]
    exact raise_alarmsOnly ..
  · rw [if_neg h, if_neg h, if_neg h]
    exact .refl _

theorem timeToExpiry_none {s : State} (h : s.round.keptInterval = none ∨ s.round.lastLaunch = none) (n : Nat) :
    s.timeToExpiry n = n := by
  have : s.samplesToExpiry = none := by
    unfold State.samplesToExpiry
    rcases h with h | h
    · simp [h]
    · cases s.round.keptInterval <;> simp [h]
  simp [State.timeToExpiry, this]

theorem timeToExpiry_some {s : State} {i l : Nat} (hi : s.round.keptInterval = some i) (hl : s.round.lastLaunch = some l)
    (n : Nat) : s.timeToExpiry n = min ((5 * i + 3) / 4 - (s.now - l)) n := by
  simp [State.timeToExpiry, State.samplesToExpiry, hi, hl]

theorem timeToExpiry_le (s : State) (n : Nat) : s.timeToExpiry n ≤ n := by
  unfold State.timeToExpiry
  split
  · exact Nat.min_le_right ..
  · exact Nat.le_refl n

/-- The state a flywheel expiry finds, its command's time passed (R8, log 39). -/
def passed (s : State) (take hold : Contact) (k : Nat) : State := (s.setContacts take hold).elapse k

theorem exec_flywheelExpiry (s : State) (n : Nat) (take hold : Contact) :
    exec (.flywheelExpiry n take hold) s = .next (passed s take hold (s.timeToExpiry n)).flywheel := rfl

theorem passed_due_iff {s : State} (take hold : Contact) {i l : Nat} (ha : s.rstActive = false)
    (hi : s.round.keptInterval = some i) (hl : s.round.lastLaunch = some l) (k : Nat) :
    (passed s take hold k).flywheelDue = true ↔ 5 * i ≤ 4 * (s.now + k - l) := by
  rw [flywheelDue_iff]
  constructor
  · rintro ⟨-, i', l', hi', hl', h⟩
    obtain rfl : i = i' := Option.some.inj (hi.symm.trans hi')
    obtain rfl : l = l' := Option.some.inj (hl.symm.trans hl')
    exact h
  · exact fun h => ⟨ha, i, l, hi, hl, h⟩

/-- A flywheel round: launched, the reference cleared, the count raised (R8 to R11). -/
theorem flywheel_launched {s : State} {i : Nat} (hi : s.round.keptInterval = some i) (h : s.flywheelDue = true) :
    s.flywheel.round.fieldCount = s.round.fieldCount + 1 ∧ s.flywheel.round.reference = none
      ∧ s.flywheel.round.keptInterval = some i ∧ s.flywheel.round.lastLaunch = some s.now ∧ s.flywheel.round.phase = .awaited
      ∧ s.flywheel.round.flywheel = (if s.round.flywheel = 2 then 3 else min 3 (s.round.flywheel + 1))
      ∧ s.flywheel.round.sync = (if s.round.flywheel = 2 then .lost else s.round.sync)
      ∧ s.flywheel.now = s.now ∧ ConfigurationKept s s.flywheel := by
  have done := launch_launched s
  have cleared : ConfigurationKept s.launch (flywheelRound s) :=
    ⟨fun _ => rfl, rfl, rfl, fun g => by cases g <;> rfl, rfl, rfl, rfl, rfl, rfl, rfl, rfl⟩
  have wrote : ConfigurationKept (flywheelRound s) { flywheelRound s with round := { (flywheelRound s).round with
      flywheel := if (flywheelRound s).round.flywheel = 2 then 3 else min 3 ((flywheelRound s).round.flywheel + 1)
      sync := if (flywheelRound s).round.flywheel = 2 then .lost else (flywheelRound s).round.sync } } :=
    ⟨fun _ => rfl, rfl, rfl, fun g => by cases g <;> rfl, rfl, rfl, rfl, rfl, rfl, rfl, rfl⟩
  have count := AlarmsOnly.closes (countFlywheel_alarmsOnly (flywheelRound s))
  have flywheel : (flywheelRound s).round.flywheel = s.round.flywheel := done.flywheel
  have sync : (flywheelRound s).round.sync = s.round.sync := done.sync
  rw [flywheel_due h]
  refine ⟨count.fieldCount.trans done.fieldCount, count.reference, (count.keptInterval.trans done.keptInterval).trans hi,
    count.lastLaunch.trans done.lastLaunch, count.phase.trans done.phase, count.flywheel.trans ?_, count.sync.trans ?_,
    count.now.trans done.now, ?_⟩
  · simp only [flywheel]
  · simp only [flywheel, sync]
  · exact ConfigurationKept.trans (ConfigurationKept.trans (ConfigurationKept.trans done.configuration cleared) wrote)
      count.configurationKept

/-- An idle sample period that makes the flywheel due is an expiry of one period (R8, log 2). -/
theorem step_expiry {s : State} {p : Pins} {rest : List Pins} {i l : Nat} (hp : s.pending = []) (hin : s.inputs = p :: rest)
    (ha : s.rstActive = false) (hr : p.rst = true) (hf : s.round.fldFiltered = true) (hs : s.round.fldSample = true)
    (hx : p.fld = true) (hph : s.port.phase = .waiting) (hfl : s.port.filtered = true) (hls : s.port.lastSample = true)
    (hlx : p.lrx = true) (hi : s.round.keptInterval = some i) (hl : s.round.lastLaunch = some l)
    (hbefore : 4 * (s.now - l) < 5 * i) (hdue : 5 * i ≤ 4 * (s.now + 1 - l)) :
    step s = exec (.flywheelExpiry 1 (levelContact p.take) (levelContact p.hold)) { s with pins := p, inputs := rest } := by
  have idle := sampleAll_idle (s := { s.elapse 1 with pins := p, inputs := rest }) hph hfl hls hlx
  have high := sampleFld_high (s := { s.elapse 1 with pins := p, inputs := rest }) hf hs hx
  have due : { s.elapse 1 with pins := p, inputs := rest }.flywheelDue = true :=
    (flywheelDue_iff _).mpr ⟨by simp [State.rstActive, hr], i, l, hi, hl, hdue⟩
  have one : { s with pins := p, inputs := rest }.timeToExpiry 1 = 1 := by
    rw [timeToExpiry_some (s := { s with pins := p, inputs := rest }) hi hl]
    change min ((5 * i + 3) / 4 - (s.now - l)) 1 = 1
    omega
  rw [step_samples hp hin ha hr, idle, high]
  dsimp only
  rw [due, exec_flywheelExpiry, one]
  change Host.Outcome.next (State.flywheel _) = Host.Outcome.next (State.flywheel _)
  simp only [passed, State.setContacts, contactLevel_levelContact]
  rfl

/-- Settles O16: the command's time ends at the first due period or before it; there the round is launched and counted. -/
theorem flywheelExpiryLaunchesARound : Obligations.FlywheelExpiryLaunchesARound := by
  intro s n take hold
  refine ⟨fun h => ?never, fun ha => ⟨s.timeToExpiry n, timeToExpiry_le s n, ?held⟩, fun i l ha hi hl hln =>
    ⟨fun h => ?early, fun h => ?due, fun p rest hp hin hr hf hs hx hph hfl hls hlx h1 h2 =>
      step_expiry hp hin ha hr hf hs hx hph hfl hls hlx hi hl h1 h2⟩⟩
  case never =>
    rw [exec_flywheelExpiry, timeToExpiry_none h, flywheel_undue]
    · rfl
    · refine Bool.eq_false_iff.mpr fun e => ?_
      obtain ⟨-, i, l, hi, hl, -⟩ := (flywheelDue_iff _).mp e
      rcases h with h | h
      · exact absurd (h.symm.trans hi) nofun
      · exact absurd (h.symm.trans hl) nofun
  case held =>
    refine congrArg Host.Outcome.next (flywheel_undue (Bool.eq_false_iff.mpr fun e => ?_))
    exact absurd (ha.symm.trans ((flywheelDue_iff _).mp e).1) nofun
  case early =>
    have time : s.timeToExpiry n = n := by rw [timeToExpiry_some hi hl]; omega
    rw [exec_flywheelExpiry, time]
    refine congrArg Host.Outcome.next (flywheel_undue (Bool.eq_false_iff.mpr fun e => ?_))
    have := (passed_due_iff take hold ha hi hl n).mp e
    omega
  case due =>
    have time := timeToExpiry_some hi hl n
    have due := (passed_due_iff take hold ha hi hl (s.timeToExpiry n)).mpr (by omega)
    obtain ⟨hfield, href, hkept, hlast, hphase, hfly, hsync, hnow, hconf⟩ :=
      flywheel_launched (s := passed s take hold (s.timeToExpiry n)) hi due
    have hnow' : (passed s take hold (s.timeToExpiry n)).flywheel.now = s.now + s.timeToExpiry n := hnow
    refine ⟨_, exec_flywheelExpiry .., hfield, href, hkept, by rw [hlast, hnow], hphase, hfly, hsync, ?_, ?_, ?_, ?_, ?_,
      ConfigurationKept.trans (elapse_configurationKept s take hold _) hconf⟩
    · omega
    · omega
    · omega
    · omega
    · rw [hnow', Nat.add_sub_cancel_left]
      exact flywheel_due due

end Sys2Proof.Proofs.Timing
end

section
/-! What the handing on and the works of a field close tell the alarm unit, and that they fill no placed list
(R16, R41, R135, R160). -/

namespace Sys2Proof.Proofs.Telling

open Sys2Proof Sys2Proof.Machine Sys2Proof.Proofs.Handling Sys2Proof.Proofs.Closing

/-- Besides what is told to the alarm unit, an empty placed list stays empty. -/
structure Tells (r w : List Source) (s t : State) : Prop where
  handled : Handled r w s t
  placed : s.round.placed = [] → t.round.placed = []

section
variable {r w : List Source} {s t u : State}

theorem Tells.refl (r w : List Source) (s : State) : Tells r w s s := ⟨.refl .., id⟩

theorem Tells.trans (h : Tells r w s t) (k : Tells r w t u) : Tells r w s u := ⟨h.handled.trans k.handled, k.placed ∘ h.placed⟩

theorem Tells.mono (h : Tells r w s t) {r' w' : List Source} (hr : r ⊆ r') (hw : w ⊆ w') : Tells r' w' s t :=
  ⟨h.handled.mono hr hw, h.placed⟩

theorem Tells.aside (ha : t.alarms = s.alarms) (hs : t.snaps = s.snaps) (hr : t.round = s.round) : Tells r w s t :=
  ⟨.aside ha hs (by rw [hr]), fun h => by rw [hr]; exact h⟩

theorem Tells.raise (s : State) {src : Source} (d : Detail) (h : src ∈ r) : Tells r w s (s.raise src d) :=
  ⟨.raise s d h, fun hp => (raise_alarmsOnly ..).placed.trans hp⟩

theorem Tells.withdraw (s : State) {src : Source} (h : src ∈ w) : Tells r w s (s.withdraw src) :=
  ⟨.withdraw s h, fun hp => (withdraw_alarmsOnly ..).placed.trans hp⟩

theorem Tells.request (s : State) (k : TriggerKind) (tag : Option (BitVec 16)) : Tells r w s (s.requestSnapshot k tag) :=
  ⟨.request .., fun hp => (requestSnapshot_alarmsOnly ..).placed.trans hp⟩

theorem Tells.ite {p : Prop} [Decidable p] {a b : State} (ha : Tells r w s a) (hb : Tells r w s b) :
    Tells r w s (if p then a else b) := by
  split
  · exact ha
  · exact hb

theorem foldl_tells {α : Type} {act : State → α → State} (h : ∀ v a, Tells r w v (act v a)) :
    ∀ (l : List α) (s : State), Tells r w s (l.foldl act s)
  | [], s => .refl r w s
  | a :: l, s => (h s a).trans (foldl_tells h l _)

end

theorem carryOut_tells (s : State) (tasks : List Task) : Tells cueSources [] s (s.carryOut tasks) :=
  ⟨carryOut_handled .., fun h => carryOut_placed_nil h tasks⟩

/-! ### The group logic (R128, R135, R136) -/

theorem setGroup_tells (s : State) (g : GroupId) (q : GroupRecord) : Tells [srcAirFault] [] s (s.setGroup g q) := by
  cases g <;> exact .aside rfl rfl rfl

theorem airFault_tells (s : State) (g : GroupId) (n : ChainNo) (c : Cause) : Tells [srcAirFault] [] s (s.airFault g n c) :=
  .ite (.refl ..) ((setGroup_tells ..).trans (.raise _ _ (by simp)))

theorem judgeAir_tells (s : State) (g : GroupId) (n : ChainNo) : Tells [srcAirFault] [] s (s.judgeAir g n) :=
  (Tells.ite (airFault_tells ..) (.refl ..)).trans (.ite (airFault_tells ..) (.refl ..))

theorem beginTenure_tells (s : State) (g : GroupId) (n : ChainNo) : Tells [srcAirFault] [] s (s.beginTenure g n) :=
  ((Tells.ite (airFault_tells ..) (.refl ..)).trans (.ite (airFault_tells ..) (.refl ..))).trans
    (.ite (judgeAir_tells ..) (.refl ..))

theorem deriveHolder_tells (s : State) (g : GroupId) : Tells [srcAirFault] [] s (s.deriveHolder g) := by
  refine .ite (.refl ..) ?_
  split
  · exact (setGroup_tells ..).trans (beginTenure_tells ..)
  · exact setGroup_tells ..

theorem groupUpdate_tells (s : State) (n : ChainNo) : Tells [srcAirFault] [] s (s.groupUpdate n) := by
  unfold State.groupUpdate
  split
  · exact judgeAir_tells ..
  · exact .refl ..

theorem groupTrouble_tells (s : State) (n : ChainNo) (c : Cause) : Tells [srcAirFault] [] s (s.groupTrouble n c) := by
  unfold State.groupTrouble
  split
  · exact airFault_tells ..
  · exact .refl ..

theorem groupEntry_tells (s : State) (n : ChainNo) (x y : ChainState) : Tells [srcAirFault] [] s (s.groupEntry n x y) := by
  unfold State.groupEntry
  split
  · split
    · exact deriveHolder_tells ..
    · exact .refl ..
  · exact .refl ..

/-! ### The tracker's handing on (R41) -/

/-- What the handing on of a chain's update and change of state may raise. -/
def handSources : List Source := srcAirFault :: cueSources

theorem carryOut_hands (s : State) (tasks : List Task) : Tells handSources [] s (s.carryOut tasks) :=
  (carryOut_tells s tasks).mono (List.subset_cons_self ..) (List.Subset.refl _)

theorem Tells.air {s t : State} (h : Tells [srcAirFault] [] s t) : Tells handSources [] s t :=
  h.mono (by simp [handSources]) (List.Subset.refl _)

theorem updateNotice_tells (s : State) (n : ChainNo) (u : Field) (b : Bool) : Tells handSources [] s (s.updateNotice n u b) := by
  have h : Tells handSources [] s (s.recordUpdate n u) := .aside rfl rfl rfl
  unfold State.updateNotice
  exact (h.trans (carryOut_hands ..)).trans (.ite (carryOut_hands ..) (.refl ..))

theorem handUpdate_tells (s : State) (n : ChainNo) (u : Field) (b : Bool) : Tells handSources [] s (s.handUpdate n u b) :=
  (updateNotice_tells s n u b).trans (groupUpdate_tells ..).air

theorem stateChange_tells (s : State) (n : ChainNo) (x y : ChainState) (a : Option Field) :
    Tells handSources [] s (s.stateChange n x y a) :=
  .ite (.refl ..) ((carryOut_hands ..).trans (groupEntry_tells ..).air)

/-! ### The works of a field close -/

/-- Every source but LOOP LOSS. -/
def otherSources : List Source := (List.finRange 42).filter (· ≠ srcLoopLoss)

theorem mem_otherSources {x : Source} : x ∈ otherSources ↔ x ≠ srcLoopLoss := by simp [otherSources]

/-- What leaves LOOP LOSS as it stands. -/
abbrev Spares : State → State → Prop := Tells otherSources otherSources

theorem Tells.spares {r w : List Source} {s t : State} (h : Tells r w s t) (hr : srcLoopLoss ∉ r) (hw : srcLoopLoss ∉ w) :
    Spares s t :=
  h.mono (fun _ hx => mem_otherSources.mpr fun e => hr (e ▸ hx)) fun _ hx => mem_otherSources.mpr fun e => hw (e ▸ hx)

/-- What spares LOOP LOSS leaves it standing or not, as it was. -/
theorem Spares.loopLoss {s t : State} (h : Spares s t) : t.alarmStands srcLoopLoss = s.alarmStands srcLoopLoss :=
  h.handled.alarmStands_eq (fun e => mem_otherSources.mp e rfl) (fun e => mem_otherSources.mp e rfl) (by decide)

theorem carryOut_spares (s : State) (tasks : List Task) : Spares s (s.carryOut tasks) :=
  (carryOut_tells s tasks).spares (by decide) (by simp)

theorem hands_spares {s t : State} (h : Tells handSources [] s t) : Spares s t := h.spares (by decide) (by simp)

theorem raise_spares (s : State) {src : Source} (h : src ≠ srcLoopLoss) (d : Detail) : Spares s (s.raise src d) :=
  .raise _ _ (mem_otherSources.mpr h)

theorem withdraw_spares (s : State) {src : Source} (h : src ≠ srcLoopLoss) : Spares s (s.withdraw src) :=
  .withdraw _ (mem_otherSources.mpr h)

theorem srcChainSilent_ne : ∀ n : ChainNo, srcChainSilent n ≠ srcLoopLoss := by decide

theorem srcWatch_ne : ∀ k : WatchNo, srcWatch k ≠ srcLoopLoss := by decide

theorem handSettled_spares (s : State) (n : ChainNo) (f : Field) (left : ChainState) (x : Settled) :
    Spares s (s.handSettled n f left x) := by
  have stale (u : State) (d : Detail) : Spares u ((u.raise (srcChainSilent n) d).groupTrouble n .silent) :=
    (raise_spares u (srcChainSilent_ne n) d).trans (hands_spares (groupTrouble_tells ..).air)
  have lost (u : State) : Spares u ((u.failFired n .chainLost).stateChange n left .absent none) :=
    (carryOut_spares ..).trans (hands_spares (stateChange_tells ..))
  exact ((Tells.ite (hands_spares (handUpdate_tells ..)) (.refl ..)).trans (.ite (stale ..) (.refl ..))).trans
    (.ite (lost _) (.refl ..))

theorem settleChains_spares (s : State) (f : Field) : Spares s (s.settleChains f) := by
  have records : Spares s (s.settleRecords f) := .aside rfl rfl rfl
  exact records.trans (foldl_tells (fun u n => handSettled_spares u n ..) _ _)

theorem sampleWatch_spares (s : State) (k : WatchNo) : Spares s (s.sampleWatch k) := by
  have set (w : Watch) : Spares s (s.setWatch k w) := .aside rfl rfl rfl
  unfold State.sampleWatch State.changeWatch
  exact .ite (.ite (set _) (.ite (.ite (set _) ((set _).trans (raise_spares _ (srcWatch_ne k) _)))
    ((set _).trans (withdraw_spares _ (srcWatch_ne k))))) (.refl ..)

theorem settleSeen_spares (s : State) : Spares s s.settleSeen := by
  unfold State.settleSeen
  refine foldl_tells (fun u n => ?_) _ s
  exact .aside rfl rfl rfl

theorem watchWork_spares (s : State) : Spares s s.watchWork := (foldl_tells sampleWatch_spares _ s).trans (settleSeen_spares _)

theorem giveTake_spares (s : State) : Spares s s.giveTake := by
  have given (id : CueId) (q : CueRuntime) : Spares s (s.setRuntime id q) := .aside rfl rfl rfl
  unfold State.giveTake
  split
  · exact .refl ..
  · exact (given ..).trans (carryOut_spares ..)

theorem lineWork_spares (s : State) : Spares s s.lineWork := by
  have lines : Spares s s.sampleLines := .aside rfl rfl rfl
  unfold State.lineWork
  exact .ite (lines.trans (giveTake_spares _)) lines

theorem cueWork_spares (s : State) (f : Field) (skip : List CueId) : Spares s (s.cueWork f skip) :=
  cueWork_induct (Spares s) (fun _ _ h => h.trans (carryOut_spares ..)) s f skip (.refl ..)

theorem runClose_spares (f : Field) : ∀ (order : List CloseWork) (s : State) (skip : List CueId),
    Spares s (runClose f order s skip)
  | [], _, _ => .refl ..
  | .cues :: rest, s, skip => (cueWork_spares s f skip).trans (runClose_spares f rest _ _)
  | .watches :: rest, s, _ => (watchWork_spares s).trans (runClose_spares f rest _ _)
  | .lines :: rest, s, _ => (lineWork_spares s).trans (runClose_spares f rest _ _)

theorem closeWorks_spares (s : State) (f : Field) : Spares s (s.closeWorks f) := by
  obtain ⟨order, choices, -, h⟩ := closeWorks_order s f
  have drawn : Spares s { s with choices := choices } := .aside rfl rfl rfl
  rw [h]
  exact drawn.trans (runClose_spares ..)

theorem dwellWork_placed (s : State) : s.dwellWork.round.placed = s.round.placed := (dwellWork_alarmsOnly s).placed

/-- A field close after which LOOP LOSS is as the broken count left it. -/
theorem dwellWork_loopLoss (s : State) : s.dwellWork.alarmStands srcLoopLoss = s.alarmStands srcLoopLoss := by
  have request (n : Nat) : (({ s with snaps := { s.snaps with dwellCount := n } } : State).requestSnapshot .periodic
      none).alarmStands srcLoopLoss = s.alarmStands srcLoopLoss := by
    refine (Spares.loopLoss (.request ..)).trans rfl
  unfold State.dwellWork
  split
  · exact request 0
  · split <;> rfl

end Sys2Proof.Proofs.Telling
end

section
/-! ROUND END (R15, R17): what the field close leaves of the lines, the watch bank, the chain records and the counts. -/

namespace Sys2Proof.Proofs.FieldEnd

open Sys2Proof Sys2Proof.Machine Sys2Proof.Proofs.Basics Sys2Proof.Proofs.Closing Sys2Proof.Proofs.Telling Sys2Proof.Proofs.Watches
  Sys2Proof.Proofs.Loop

/-! ### The watch bank's work (R145, R146) -/

/-- Besides alarms and snapshots, only the watch bank may differ. -/
def WatchesOnly (s t : State) : Prop := ∃ b, AlarmsOnly { s with watches := b } t

theorem WatchesOnly.refl (s : State) : WatchesOnly s s := ⟨s.watches, .refl s⟩

theorem WatchesOnly.trans {s t u : State} (h : WatchesOnly s t) (k : WatchesOnly t u) : WatchesOnly s u := by
  obtain ⟨b, h⟩ := h
  obtain ⟨c, k⟩ := k
  obtain ⟨_, _, _, _, _, _, rfl⟩ := h.elim
  obtain ⟨n, p, i, a, st, af, rfl⟩ := k.elim
  exact ⟨c, .of n p i a st af rfl⟩

section
variable {s t : State} (h : WatchesOnly s t)
include h

theorem WatchesOnly.chain (n : ChainNo) : t.chain n = s.chain n := by
  obtain ⟨b, h⟩ := h
  exact AlarmsOnly.chain h n

theorem WatchesOnly.take : t.take = s.take := by
  obtain ⟨b, h⟩ := h
  rw [h]

theorem WatchesOnly.hold : t.hold = s.hold := by
  obtain ⟨b, h⟩ := h
  rw [h]

end

theorem sampleWatch_disabled {s : State} {k : WatchNo} (h : s.watches.watches[k].enabled = false) : s.sampleWatch k = s :=
  if_neg (Bool.eq_false_iff.mp h)

/-- One sample leaves the seen frames and every other watch (R146). -/
theorem sampleWatch_spec (s : State) (k : WatchNo) : WatchesOnly s (s.sampleWatch k)
    ∧ (s.sampleWatch k).watches.seen = s.watches.seen
    ∧ (∀ j, j ≠ k → (s.sampleWatch k).watches.watches[j] = s.watches.watches[j])
    ∧ (s.sampleWatch k).watches.watches[k]
        = if s.watches.watches[k].enabled then s.sampledWatch s.watches.watches[k] else s.watches.watches[k] := by
  by_cases h : s.watches.watches[k].enabled = true
  · rw [sampleWatch_enabled h, if_pos h]
    exact ⟨⟨_, changeWatch_frame ..⟩, changeWatch_seen .., fun j hj => changeWatch_watch_other _ _ hj, changeWatch_watch_same ..⟩
  · rw [sampleWatch_disabled (Bool.eq_false_iff.mpr h), if_neg h]
    exact ⟨.refl s, rfl, fun _ _ => rfl, rfl⟩

theorem sampleWatches_spec : ∀ (l : List WatchNo) (s : State), WatchesOnly s (l.foldl State.sampleWatch s)
    ∧ (l.foldl State.sampleWatch s).watches.seen = s.watches.seen
    ∧ ∀ j, j ∉ l → (l.foldl State.sampleWatch s).watches.watches[j] = s.watches.watches[j]
  | [], s => ⟨.refl s, rfl, fun _ _ => rfl⟩
  | k :: l, s => by
    obtain ⟨hw, hs, ho, -⟩ := sampleWatch_spec s k
    obtain ⟨kw, ks, ko⟩ := sampleWatches_spec l (s.sampleWatch k)
    refine ⟨hw.trans kw, ks.trans hs, fun j hj => ?_⟩
    exact (ko j (List.not_mem_of_not_mem_cons hj)).trans (ho j (List.ne_of_not_mem_cons hj))

theorem settleSeen_watches (s : State) : s.settleSeen.watches.watches = s.watches.watches := rfl

theorem settleSeen_seen (s : State) (n : ChainNo) : s.settleSeen.watches.seen[n] = s.settledSeen n := by
  have write : ∀ (l : List ChainNo) (u : State), (l.foldl (fun (t : State) (m : ChainNo) =>
      { t with watches := { t.watches with seen := t.watches.seen.set m (s.settledSeen m) } }) u).watches.seen[n]
        = if n ∈ l then s.settledSeen n else u.watches.seen[n] := by
    intro l
    induction l with
    | nil => intro u; rfl
    | cons m l ih =>
      intro u
      rw [List.foldl_cons, ih]
      by_cases hl : n ∈ l
      · rw [if_pos hl, if_pos (List.mem_cons_of_mem _ hl)]
      · by_cases hm : m = n
        · subst hm
          simp [hl]
        · have hv : (m : Nat) ≠ n := fun e => hm (Fin.ext e)
          simp [hl, hv, Ne.symm hm]
  rw [State.settleSeen, write, if_pos (mem_allChains n)]

theorem settleSeen_watchesOnly (s : State) : WatchesOnly s s.settleSeen :=
  ⟨s.settleSeen.watches, .refl _⟩

theorem watchWork_watchesOnly (s : State) : WatchesOnly s s.watchWork :=
  (sampleWatches_spec allWatches s).1.trans (settleSeen_watchesOnly _)

theorem allWatches_split : ∀ k : WatchNo, allWatches = allWatches.take k ++ k :: allWatches.drop (k + 1)
    ∧ k ∉ allWatches.take k ∧ k ∉ allWatches.drop (k + 1)
    ∧ ∀ j, j < k → j ∈ allWatches.take k ∧ j ∉ allWatches.drop (k + 1) := by
  decide

/-- Each watch is sampled once, on the outputs of the watches before it as they have just become (R146). -/
theorem watchWork_watch (s : State) (k : WatchNo) : ∃ v, WatchesOnly s v ∧ v.watches.seen = s.watches.seen
    ∧ (∀ j, j < k → v.watches.watches[j] = s.watchWork.watches.watches[j])
    ∧ s.watchWork.watches.watches[k]
        = if s.watches.watches[k].enabled then v.sampledWatch s.watches.watches[k] else s.watches.watches[k] := by
  obtain ⟨split, hpre, hpost, hbefore⟩ := allWatches_split k
  obtain ⟨frame, seen, same⟩ := sampleWatches_spec (allWatches.take k) s
  have work : s.watchWork.watches.watches = ((allWatches.drop (k + 1)).foldl State.sampleWatch
      (((allWatches.take k).foldl State.sampleWatch s).sampleWatch k)).watches.watches := by
    rw [State.watchWork, settleSeen_watches]
    conv_lhs => rw [split, List.foldl_append, List.foldl_cons]
  obtain ⟨-, -, later⟩ := sampleWatches_spec (allWatches.drop (k + 1))
    (((allWatches.take k).foldl State.sampleWatch s).sampleWatch k)
  obtain ⟨-, -, other, own⟩ := sampleWatch_spec ((allWatches.take k).foldl State.sampleWatch s) k
  refine ⟨_, frame, seen, fun j hj => ?_, ?_⟩
  · rw [work, later j (hbefore j hj).2, other j (Fin.ne_of_lt hj)]
  · rw [work, later k hpost, own, same k hpre]

theorem watchWork_seen (s : State) (n : ChainNo) : s.watchWork.watches.seen[n] = s.settledSeen n := by
  obtain ⟨frame, seen, -⟩ := sampleWatches_spec allWatches s
  rw [State.watchWork, settleSeen_seen, State.settledSeen, State.settledSeen, State.reportPresent, State.reportPresent, frame.chain,
    seen]

/-! ### What each work leaves to the others -/

theorem CuesOnly.watches {s t : State} (h : CuesOnly s t) : t.watches = s.watches := by rw [h.2]
theorem CuesOnly.lines {s t : State} (h : CuesOnly s t) : t.take = s.take ∧ t.hold = s.hold := by
  constructor <;> rw [h.2]

/-- The lines have been sampled once (R119). -/
def LinesSampled (s t : State) : Prop :=
  t.take = s.take.sample (levelContact s.pins.take) ∧ t.hold = s.hold.sample (levelContact s.pins.hold)

theorem lineWork_sampled (s : State) : LinesSampled s s.lineWork := CuesOnly.lines (lineWork_cuesOnly s)

theorem lineWork_watches (s : State) : s.lineWork.watches = s.watches :=
  (CuesOnly.watches (lineWork_cuesOnly s)).trans rfl

theorem runClose_lines_kept (f : Field) : ∀ (order : List CloseWork) (s : State) (skip : List CueId), .lines ∉ order →
    (runClose f order s skip).take = s.take ∧ (runClose f order s skip).hold = s.hold
  | [], _, _, _ => ⟨rfl, rfl⟩
  | .cues :: rest, s, skip, h => by
    obtain ⟨ht, hh⟩ := CuesOnly.lines (cueWork_cuesOnly s f skip)
    obtain ⟨kt, kh⟩ := runClose_lines_kept f rest (s.cueWork f skip) skip (fun e => h (List.mem_cons_of_mem _ e))
    exact ⟨kt.trans ht, kh.trans hh⟩
  | .watches :: rest, s, skip, h => by
    obtain ⟨kt, kh⟩ := runClose_lines_kept f rest s.watchWork skip (fun e => h (List.mem_cons_of_mem _ e))
    exact ⟨kt.trans (watchWork_watchesOnly s).take, kh.trans (watchWork_watchesOnly s).hold⟩
  | .lines :: _, _, _, h => absurd List.mem_cons_self h

theorem runClose_lines (f : Field) : ∀ (order : List CloseWork) (s : State) (skip : List CueId), order.Nodup → .lines ∈ order →
    LinesSampled s (runClose f order s skip)
  | [], _, _, _, h => absurd h List.not_mem_nil
  | .cues :: rest, s, skip, hn, h => by
    have only := cueWork_cuesOnly s f skip
    obtain ⟨kt, kh⟩ := runClose_lines f rest (s.cueWork f skip) skip (List.nodup_cons.mp hn).2
      ((List.mem_cons.mp h).resolve_left nofun)
    rw [(CuesOnly.lines only).1, (CuesOnly.closes only).pins] at kt
    rw [(CuesOnly.lines only).2, (CuesOnly.closes only).pins] at kh
    exact ⟨kt, kh⟩
  | .watches :: rest, s, skip, hn, h => by
    have only := watchWork_watchesOnly s
    obtain ⟨kt, kh⟩ := runClose_lines f rest s.watchWork skip (List.nodup_cons.mp hn).2
      ((List.mem_cons.mp h).resolve_left nofun)
    rw [only.take, (watchWork_closes s).pins] at kt
    rw [only.hold, (watchWork_closes s).pins] at kh
    exact ⟨kt, kh⟩
  | .lines :: rest, s, skip, hn, _ => by
    obtain ⟨ht, hh⟩ := lineWork_sampled s
    obtain ⟨kt, kh⟩ := runClose_lines_kept f rest s.lineWork (skip ++ newlyWithheld s s.lineWork) (List.nodup_cons.mp hn).1
    exact ⟨kt.trans ht, kh.trans hh⟩

theorem runClose_watches_kept (f : Field) : ∀ (order : List CloseWork) (s : State) (skip : List CueId), .watches ∉ order →
    (runClose f order s skip).watches = s.watches
  | [], _, _, _ => rfl
  | .cues :: rest, s, skip, h =>
    (runClose_watches_kept f rest _ _ fun e => h (List.mem_cons_of_mem _ e)).trans (CuesOnly.watches (cueWork_cuesOnly s f skip))
  | .lines :: rest, s, _, h =>
    (runClose_watches_kept f rest _ _ fun e => h (List.mem_cons_of_mem _ e)).trans (lineWork_watches s)
  | .watches :: _, _, _, h => absurd List.mem_cons_self h

/-- The watch bank works once, on a state that has its watches and the records as they were (R146). -/
theorem runClose_watches (f : Field) : ∀ (order : List CloseWork) (s : State) (skip : List CueId), order.Nodup →
    .watches ∈ order → ∃ u, Closes s u ∧ u.watches = s.watches ∧ (runClose f order s skip).watches = u.watchWork.watches
  | [], _, _, _, h => absurd h List.not_mem_nil
  | .cues :: rest, s, skip, hn, h => by
    have only := cueWork_cuesOnly s f skip
    obtain ⟨u, hu, hw, he⟩ := runClose_watches f rest (s.cueWork f skip) skip (List.nodup_cons.mp hn).2
      ((List.mem_cons.mp h).resolve_left nofun)
    exact ⟨u, (CuesOnly.closes only).trans hu, hw.trans (CuesOnly.watches only), he⟩
  | .lines :: rest, s, skip, hn, h => by
    obtain ⟨u, hu, hw, he⟩ := runClose_watches f rest s.lineWork (skip ++ newlyWithheld s s.lineWork) (List.nodup_cons.mp hn).2
      ((List.mem_cons.mp h).resolve_left nofun)
    exact ⟨u, (lineWork_closes s).trans hu, hw.trans (lineWork_watches s), he⟩
  | .watches :: rest, s, skip, hn, _ =>
    ⟨s, .refl s, rfl, runClose_watches_kept f rest s.watchWork skip (List.nodup_cons.mp hn).1⟩

/-! ### What a watch samples (R144, R145) -/

section
variable {v t : State} (same : ∀ n, (t.chain n).tracked = (v.chain n).tracked)
include same

theorem state_of_tracked (n : ChainNo) : (t.chain n).state = (v.chain n).state := by
  have := congrArg (fun r : ChainRecord => r.state) (same n)
  exact this

theorem missingCount_of_tracked (n : ChainNo) : (t.chain n).missingCount = (v.chain n).missingCount := by
  have := congrArg (fun r : ChainRecord => r.missingCount) (same n)
  exact this

theorem reported_of_tracked (n : ChainNo) : (t.chain n).reported = (v.chain n).reported := by
  have := congrArg (fun r : ChainRecord => r.reported) (same n)
  exact this

theorem reportPresent_of_tracked (n : ChainNo) : t.reportPresent n = v.reportPresent n := by
  rw [State.reportPresent, State.reportPresent, state_of_tracked same, missingCount_of_tracked same]

/-- The seen frame that a settling leaves, read off the records afterwards (R145). -/
theorem settledSeen_eq (n : ChainNo) : v.settledSeen n =
    if (t.chain n).state = .absent then none
    else if (t.chain n).missingCount = 0 then some (t.chain n).reported.frame else v.watches.seen[n] := by
  rw [State.settledSeen, State.reportPresent, ← state_of_tracked same, ← missingCount_of_tracked same, ← reported_of_tracked same]
  by_cases ha : (t.chain n).state = .absent
  · simp [ha]
  · simp [ha]

end

/-- The signals that O20 names, on the records and seen frames given, and on the watches before this one (R144). -/
def shownSignal (t : State) (seen : Option Frame) (k : WatchNo) (n : ChainNo) : Signal → Option Bool
  | .reportPresent => some (t.reportPresent n)
  | .frameAdvance => some (t.reportPresent n && seen.any (fun x => x != (t.chain n).reported.frame))
  | .atSpeed => some ((t.chain n).state == .atSpeed)
  | .lampUp => some ((t.chain n).state != .absent && (t.chain n).reported.lamp == .up)
  | .dowserOpen => some ((t.chain n).state != .absent && (t.chain n).reported.dowser)
  | .watch j => if j < k then some t.watches.watches[j].output else none
  | _ => none

theorem signal_shown {v t : State} (same : ∀ n, (t.chain n).tracked = (v.chain n).tracked) {k : WatchNo}
    (before : ∀ j, j < k → v.watches.watches[j] = t.watches.watches[j]) {n : ChainNo} {x : Signal} {level : Bool}
    (h : shownSignal t v.watches.seen[n] k n x = some level) : v.signal n x = level := by
  have state := state_of_tracked same n
  have reported := reported_of_tracked same n
  have present := reportPresent_of_tracked same n
  cases x
  case frameAdvance =>
    simp only [shownSignal, Option.some.injEq] at h
    rw [State.signal, State.frameAdvance, ← h, present, reported]
    cases v.watches.seen[n] <;> rfl
  case watch j =>
    simp only [shownSignal] at h
    split at h
    · next hj =>
      rw [State.signal, before j hj]
      exact Option.some.inj h
    · cases h
  all_goals
    simp only [shownSignal, Option.some.injEq, reduceCtorEq] at h
    try rw [State.signal, ← h]
  case reportPresent => exact present.symm
  case atSpeed => rw [state]
  case lampUp => rw [state, reported]
  case dowserOpen => rw [state, reported]

/-! ### The whole field close (R17) -/

theorem fieldClose_order (s : State) (f : Field) (b : Bool) : ∃ order choices, order.Perm [.cues, .lines, .watches]
    ∧ s.fieldClose f b = (runClose f order { (s.settleChains f).countBroken b with choices := choices } []).dwellWork := by
  obtain ⟨order, choices, hp, h⟩ := closeWorks_order ((s.settleChains f).countBroken b) f
  exact ⟨order, choices, hp, by rw [State.fieldClose, h]⟩

theorem perm_works {order : List CloseWork} (h : order.Perm [.cues, .lines, .watches]) :
    order.Nodup ∧ .lines ∈ order ∧ .watches ∈ order :=
  ⟨h.nodup_iff.mpr (by decide), h.mem_iff.mpr (by decide), h.mem_iff.mpr (by decide)⟩

/-- Before its works a field close leaves the watch bank, the lines and the pins. -/
theorem beforeWorks_same (s : State) (f : Field) (b : Bool) : ((s.settleChains f).countBroken b).watches = s.watches
    ∧ ((s.settleChains f).countBroken b).take = s.take ∧ ((s.settleChains f).countBroken b).hold = s.hold
    ∧ ((s.settleChains f).countBroken b).pins = s.pins := by
  rw [countBroken_alarmsOnly (s.settleChains f) b]
  change (s.settleChains f).watches = s.watches ∧ (s.settleChains f).take = s.take ∧ (s.settleChains f).hold = s.hold
    ∧ (s.settleChains f).pins = s.pins
  rw [settleChains_trackingOnly s f]
  exact ⟨rfl, rfl, rfl, rfl⟩

theorem beforeWorks_tracked (s : State) (f : Field) (b : Bool) (n : ChainNo) :
    (((s.settleChains f).countBroken b).chain n).tracked = (settleRecord (s.chain n)).record.tracked := by
  rw [(countBroken_alarmsOnly (s.settleChains f) b).chain]
  exact settleChains_tracked s f n

/-- Every record is what its settling makes it, to the end of the field close (R36). -/
theorem fieldClose_tracked (s : State) (f : Field) (b : Bool) (n : ChainNo) :
    ((s.fieldClose f b).chain n).tracked = (settleRecord (s.chain n)).record.tracked := by
  refine ((fieldClose_closes s f b).tracked n).trans ?_
  exact congrArg ChainRecord.tracked (settleRecords_chain s f n)

theorem dwellWork_same (s : State) : s.dwellWork.watches = s.watches ∧ s.dwellWork.take = s.take ∧ s.dwellWork.hold = s.hold :=
  have only := (dwellWork_alarmsOnly s).cuesOnly
  ⟨(CuesOnly.watches only).trans rfl, (CuesOnly.lines only).1.trans rfl, (CuesOnly.lines only).2.trans rfl⟩

theorem fieldClose_lines (s : State) (f : Field) (b : Bool) : LinesSampled s (s.fieldClose f b) := by
  obtain ⟨order, choices, hp, h⟩ := fieldClose_order s f b
  obtain ⟨hn, hl, -⟩ := perm_works hp
  obtain ⟨-, ht, hh, hpins⟩ := beforeWorks_same s f b
  obtain ⟨kt, kh⟩ := runClose_lines f order { (s.settleChains f).countBroken b with choices := choices } [] hn hl
  obtain ⟨-, dt, dh⟩ := dwellWork_same (runClose f order { (s.settleChains f).countBroken b with choices := choices } [])
  rw [h]
  exact ⟨(dt.trans kt).trans (by rw [← ht, ← hpins]), (dh.trans kh).trans (by rw [← hh, ← hpins])⟩

/-- The watch bank works on the records as settled and on the watches as they were (R146). -/
theorem fieldClose_watches (s : State) (f : Field) (b : Bool) : ∃ u : State,
    (∀ n, (u.chain n).tracked = (settleRecord (s.chain n)).record.tracked) ∧ u.watches = s.watches
      ∧ (s.fieldClose f b).watches = u.watchWork.watches := by
  obtain ⟨order, choices, hp, h⟩ := fieldClose_order s f b
  obtain ⟨hn, -, hw⟩ := perm_works hp
  obtain ⟨u, hu, hsame, hwork⟩ := runClose_watches f order { (s.settleChains f).countBroken b with choices := choices } [] hn hw
  refine ⟨u, fun n => (hu.tracked n).trans (beforeWorks_tracked s f b n), hsame.trans (beforeWorks_same s f b).1, ?_⟩
  rw [h]
  exact (dwellWork_same _).1.trans hwork

/-- No action is placed at a field close (R16). -/
theorem fieldClose_placed {s : State} (h : s.round.placed = []) (f : Field) (b : Bool) : (s.fieldClose f b).round.placed = [] := by
  have settled := (settleChains_spares s f).placed h
  have counted : ((s.settleChains f).countBroken b).round.placed = [] := (countBroken_alarmsOnly _ b).placed.trans settled
  rw [State.fieldClose, dwellWork_placed]
  exact (closeWorks_spares _ f).placed counted

/-- A watch after the field close: as it was when disabled, else sampled once on the records as settled (R146). -/
theorem fieldClose_watch (s : State) (f : Field) (b : Bool) (k : WatchNo) :
    let t := s.fieldClose f b
    let w := s.watches.watches[k]
    let sampled (level : Bool) : Watch :=
      { w with count := (modeStep w level).count, output := (modeStep w level).output, previous := some level }
    (w.enabled = false → t.watches.watches[k] = w)
      ∧ (w.enabled = true → t.watches.watches[k] = w.atRest ∨ ∃ level, t.watches.watches[k] = sampled level)
      ∧ (∀ level, w.enabled = true → w.qualifier = none → shownSignal t s.watches.seen[w.chain] k w.chain w.signal = some level →
          t.watches.watches[k] = sampled level) := by
  obtain ⟨u, htracked, hsame, hwork⟩ := fieldClose_watches s f b
  obtain ⟨v, hv, hseen, hbefore, hk⟩ := watchWork_watch u k
  have same (n : ChainNo) : ((s.fieldClose f b).chain n).tracked = (v.chain n).tracked := by
    rw [hv.chain, htracked, fieldClose_tracked]
  rw [← hwork, hsame] at hk
  rw [← hwork] at hbefore
  rw [hsame] at hseen
  intro t w sampled
  refine ⟨fun he => ?_, fun he => ?_, fun level he hq hshown => ?_⟩
  · rw [hk, if_neg (Bool.eq_false_iff.mp he)]
  · rw [hk, if_pos he, State.sampledWatch]
    split
    · exact .inr ⟨_, rfl⟩
    · exact .inl rfl
  · rw [← hseen] at hshown
    rw [hk, if_pos he, State.sampledWatch, if_pos (by rw [State.qualified, hq]), signal_shown same hbefore hshown]

/-- The seen frames after a field close (R145). -/
theorem fieldClose_seen (s : State) (f : Field) (b : Bool) (n : ChainNo) : (s.fieldClose f b).watches.seen[n] =
    if ((s.fieldClose f b).chain n).state = .absent then none
    else if ((s.fieldClose f b).chain n).missingCount = 0 then some ((s.fieldClose f b).chain n).reported.frame
    else s.watches.seen[n] := by
  obtain ⟨u, htracked, hsame, hwork⟩ := fieldClose_watches s f b
  have seen := watchWork_seen u n
  rw [settledSeen_eq (t := s.fieldClose f b) fun m => (fieldClose_tracked s f b m).trans (htracked m).symm, hsame] at seen
  rw [hwork]
  exact seen

/-- The state in which ROUND END closes its field: the round complete, its placed list discarded (R15, R16). -/
def ending (s : State) (take hold : Contact) : State :=
  { (s.setContacts take hold).listening with
    round := { (s.setContacts take hold).listening.round with phase := .complete, placed := [] } }

theorem roundEnd_closes {s : State} {f : Field} (hp : s.round.phase = .windowOpen) (hf : f = s.round.fieldCount) :
    s.roundEnd f = State.fieldClose { s with round := { s.round with phase := .complete, placed := [] } } f true := by
  simp [State.roundEnd, hp, hf, State.fieldCount]

theorem levelContact_contactLevel (c : Contact) : levelContact (contactLevel c) = c := by cases c <;> rfl

theorem sample_accepted (l : LineFilter) (c : Contact) :
    (l.sample c).accepted = if l.last = some c then some c else l.accepted := rfl

/-- Settles O20: the telegram closes the field, and each of its works is done once. -/
theorem roundEndClosesTheField : Obligations.RoundEndClosesTheField := by
  intro s f take hold hw hf
  obtain ⟨hr, hopen⟩ : s.receiving = true ∧ s.windowOpen = true := by simpa [State.inWindow] using hw
  have e : exec (.roundEndReturn f take hold) s = .next ((ending s take hold).fieldClose f true) := by
    refine congrArg Host.Outcome.next ((received_inWindow (s := s.setContacts take hold) hr _).trans ?_)
    rw [receive_own (s := (s.setContacts take hold).listening) hopen rfl]
    exact (endReturn_wordBytes _ f).trans (roundEnd_closes (by simpa [State.windowOpen] using hopen) hf)
  have closes := fieldClose_closes (ending s take hold) f true
  have lines := fieldClose_lines (ending s take hold) f true
  have none : (ending s take hold).round.placed = [] := rfl
  have placed := fieldClose_placed none f true
  have order := fieldClose_order (ending s take hold) f true
  have tracked := fieldClose_tracked (ending s take hold) f true
  have seen := fieldClose_seen (ending s take hold) f true
  have watch := fieldClose_watch (ending s take hold) f true
  generalize (ending s take hold).fieldClose f true = t at *
  obtain ⟨htake, hhold⟩ := lines
  refine ⟨t, e, closes.phase, placed, closes.broken, closes.fieldCount.trans hf.symm, ?_, ?_, ?_, ?_,
    tracked, closes.dwellCount, order, seen, watch, ?_⟩
  · rw [htake]
    exact congrArg some (levelContact_contactLevel take)
  · rw [hhold]
    exact congrArg some (levelContact_contactLevel hold)
  · rw [htake, sample_accepted]
    change (if s.take.last = some (levelContact (contactLevel take)) then some (levelContact (contactLevel take)) else _) = _
    rw [levelContact_contactLevel]
    rfl
  · rw [hhold, sample_accepted]
    change (if s.hold.last = some (levelContact (contactLevel hold)) then some (levelContact (contactLevel hold)) else _) = _
    rw [levelContact_contactLevel]
    rfl
  · have before : ConfigurationKept s (ending s take hold) :=
      ⟨fun _ => rfl, rfl, rfl, fun g => by cases g <;> rfl, rfl, rfl, rfl, rfl, rfl, rfl, rfl⟩
    exact ConfigurationKept.trans (ConfigurationKept.trans before (closed_configurationKept ..)) closes.configurationKept

end Sys2Proof.Proofs.FieldEnd
end

section
/-! The filling of a round within its 128 characters (R11 to R13, R184). -/

namespace Sys2Proof.Proofs.Filling

open Sys2Proof Sys2Proof.Machine Sys2Proof.Proofs.Steps Sys2Proof.Proofs.Closing

/-- The characters that telegrams take. -/
def chars (l : List Telegram) : Nat := (l.map telegramChars).sum

@[simp] theorem chars_nil : chars [] = 0 := rfl
@[simp] theorem chars_cons (t : Telegram) (l : List Telegram) : chars (t :: l) = telegramChars t + chars l := by simp [chars]
@[simp] theorem chars_append (l m : List Telegram) : chars (l ++ m) = chars l + chars m := by simp [chars]

theorem chars_flatMap_telegrams (l : List ActionSet) : chars (l.flatMap ActionSet.telegrams) = (l.map ActionSet.chars).sum := by
  induction l with
  | nil => rfl
  | cons a l ih => rw [List.flatMap_cons, chars_append, ih, List.map_cons, List.sum_cons]; rfl

theorem chars_map {α : Type} (f : α → Telegram) (l : List α) : chars (l.map f) = (l.map (fun a => telegramChars (f a))).sum := by
  rw [chars, List.map_map]; rfl

/-! ### SNAPSHOT DATA (R184) -/

/-- The two requests of a fixing: the telegrams and the buffer left (R13). -/
def twoRequests (b : SnapshotBuffer) (space : Nat) : List Telegram × SnapshotBuffer :=
  let d1 := requestData b space
  let d2 := if d1.1.isEmpty || 0 = d1.2.2 then ([], d1.2.1, d1.2.2) else requestData d1.2.1 d1.2.2
  (d1.1 ++ d2.1, d2.2.1)

theorem requestData_none {b : SnapshotBuffer} {space : Nat} (h : b.build space = none) : requestData b space = ([], b, space) := by
  simp only [requestData, h]

theorem requestData_some {b : SnapshotBuffer} {space : Nat} {x : Built} (h : b.build space = some x) :
    requestData b space = ([x.telegram], x.buffer, space - telegramChars x.telegram) := by
  simp only [requestData, h]

theorem twoRequests_none {b : SnapshotBuffer} {space : Nat} (h : b.build space = none) : twoRequests b space = ([], b) := by
  simp [twoRequests, requestData_none h]

theorem twoRequests_one {b : SnapshotBuffer} {space : Nat} {x : Built} (h : b.build space = some x)
    (hx : space - telegramChars x.telegram = 0 ∨ x.buffer.build (space - telegramChars x.telegram) = none) :
    twoRequests b space = ([x.telegram], x.buffer) := by
  simp only [twoRequests, requestData_some h]
  by_cases h0 : space - telegramChars x.telegram = 0
  · simp [h0]
  · simp [requestData_none (hx.resolve_left h0), Ne.symm h0]

theorem twoRequests_two {b : SnapshotBuffer} {space : Nat} {x y : Built} (h : b.build space = some x)
    (h0 : 0 < space - telegramChars x.telegram) (hy : x.buffer.build (space - telegramChars x.telegram) = some y) :
    twoRequests b space = ([x.telegram, y.telegram], y.buffer) := by
  have hne : ¬ 0 = space - telegramChars x.telegram := by omega
  simp [twoRequests, requestData_some h, requestData_some hy, hne]

/-- Both telegrams are SNAPSHOT DATA and stay within the space (R13, R184). -/
theorem twoRequests_fit (b : SnapshotBuffer) (space : Nat) : (twoRequests b space).1.length ≤ 2
    ∧ (∀ d ∈ (twoRequests b space).1, d.kind = kindSnapshotData) ∧ chars (twoRequests b space).1 ≤ space := by
  cases h : b.build space with
  | none => simp [twoRequests_none h]
  | some x =>
    obtain ⟨hk, hfit, -⟩ := build_spec h
    by_cases h0 : space - telegramChars x.telegram = 0
    · rw [twoRequests_one h (.inl h0)]
      simp [hk, hfit]
    · cases hy : x.buffer.build (space - telegramChars x.telegram) with
      | none =>
        rw [twoRequests_one h (.inr hy)]
        simp [hk, hfit]
      | some y =>
        obtain ⟨hky, hfity, -⟩ := build_spec hy
        rw [twoRequests_two h (Nat.pos_of_ne_zero h0) hy]
        simp only [List.length_cons, List.length_nil, List.forall_mem_cons, chars_cons, chars_nil]
        exact ⟨by omega, ⟨hk, hky, nofun⟩, by omega⟩

/-! ### The classes in order (R12, R13) -/

section
variable (s : State)

/-- ALL STOP, if it waits. -/
def stopOf : List Telegram := if s.round.allStop then [allStopTelegram] else []

/-- Class 3 taken into the space left by ALL STOP. -/
def setsFit : List ActionSet × List ActionSet × Nat := takeFitting ActionSet.chars s.round.sets (115 - chars (stopOf s))

/-- Class 4 taken into what class 3 leaves. -/
def noticesFit : List Notice × List Notice × Nat :=
  takeFitting (fun n => telegramChars (noticeTelegram n)) s.round.notices (setsFit s).2.2

/-- Class 5 taken into what class 4 leaves. -/
def repliesFit : List Reply × List Reply × Nat :=
  takeFitting (fun r => telegramChars (replyTelegram r)) s.round.replies (noticesFit s).2.2

theorem fix_telegrams : s.fix.telegrams = stopOf s ++ (setsFit s).1.flatMap ActionSet.telegrams
    ++ (noticesFit s).1.map noticeTelegram ++ (repliesFit s).1.map replyTelegram
    ++ (twoRequests s.snaps (repliesFit s).2.2).1 :=
  List.append_assoc ..

theorem fix_buffer : s.fix.buffer = (twoRequests s.snaps (repliesFit s).2.2).2 := rfl

theorem chars_stopOf : chars (stopOf s) ≤ 4 := by
  unfold stopOf
  split
  · exact le_rfl
  · simp

end

/-- What a fixing makes of the three queues and of the buffer (R12, R13). -/
theorem fix_spec (s : State) : ∃ (k j m : Nat) (data : List Telegram),
    let sets (i : Nat) := (s.round.sets.take i).flatMap ActionSet.telegrams
    let notices (i : Nat) := (s.round.notices.take i).map noticeTelegram
    let replies (i : Nat) := (s.round.replies.take i).map replyTelegram
    let left := 115 - chars (stopOf s ++ sets k ++ notices j ++ replies m)
    s.fix.telegrams = stopOf s ++ sets k ++ notices j ++ replies m ++ data
      ∧ chars (stopOf s ++ sets k ++ notices j ++ replies m) + chars data ≤ 115
      ∧ data = (twoRequests s.snaps left).1 ∧ s.fix.buffer = (twoRequests s.snaps left).2
      ∧ (k < s.round.sets.length → 115 < chars (stopOf s ++ sets (k + 1)))
      ∧ (j < s.round.notices.length → 115 < chars (stopOf s ++ sets k ++ notices (j + 1)))
      ∧ (m < s.round.replies.length → 115 < chars (stopOf s ++ sets k ++ notices j ++ replies (m + 1)))
      ∧ s.fix.placed = (s.round.sets.take k).flatMap (fun a => a.telegrams.map (fun x => { telegram := x, cue := a.cue }))
      ∧ s.fix.waiting = s.round.sets.drop k ∧ s.fix.notices = s.round.notices.drop j ∧ s.fix.replies = s.round.replies.drop m := by
  have stop := chars_stopOf s
  obtain ⟨k, -, hk, hkr, hks, hkn⟩ := takeFitting_spec ActionSet.chars s.round.sets (115 - chars (stopOf s))
  obtain ⟨j, -, hj, hjr, hjs, hjn⟩ :=
    takeFitting_spec (fun n => telegramChars (noticeTelegram n)) s.round.notices (setsFit s).2.2
  obtain ⟨m, -, hm, hmr, hms, hmn⟩ :=
    takeFitting_spec (fun r => telegramChars (replyTelegram r)) s.round.replies (noticesFit s).2.2
  change (setsFit s).1 = _ at hk
  change _ + (setsFit s).2.2 = _ at hks
  change (noticesFit s).1 = _ at hj
  change _ + (noticesFit s).2.2 = _ at hjs
  change (repliesFit s).1 = _ at hm
  change _ + (repliesFit s).2.2 = _ at hms
  have hleft : 115 - chars (stopOf s ++ (s.round.sets.take k).flatMap ActionSet.telegrams
      ++ (s.round.notices.take j).map noticeTelegram ++ (s.round.replies.take m).map replyTelegram) = (repliesFit s).2.2 := by
    simp only [chars_append, chars_flatMap_telegrams, chars_map]
    omega
  have fits := (twoRequests_fit s.snaps (repliesFit s).2.2).2.2
  refine ⟨k, j, m, (twoRequests s.snaps (repliesFit s).2.2).1, ?_, ?_, ?_, ?_, ?_, ?_, ?_, ?_, hkr, hjr, hmr⟩
  · rw [fix_telegrams, hk, hj, hm]
  · simp only [chars_append, chars_flatMap_telegrams, chars_map]
    omega
  · rw [hleft]
  · rw [hleft]
    exact fix_buffer s
  · intro h
    have := hkn h
    simp only [chars_append, chars_flatMap_telegrams]
    omega
  · intro h
    have := hjn h
    simp only [chars_append, chars_flatMap_telegrams, chars_map]
    omega
  · intro h
    have := hmn h
    simp only [chars_append, chars_flatMap_telegrams, chars_map]
    omega
  · rw [← hk]
    rfl

end Sys2Proof.Proofs.Filling
end

section
/-! The launch: what the fixing leaves, the deferrals, and the field close of a broken round (R11, R14, R17, R18). -/

namespace Sys2Proof.Proofs.Launching

open Sys2Proof Sys2Proof.Machine Sys2Proof.Proofs.Handling Sys2Proof.Proofs.Fates Sys2Proof.Proofs.Closing
  Sys2Proof.Proofs.Telling Sys2Proof.Proofs.FieldEnd Sys2Proof.Proofs.Timing Sys2Proof.Proofs.Filling Sys2Proof.Proofs.Snapshots

/-! ### Deferrals (R14, R89, R117) -/

/-- Besides alarms and snapshots, only the cue engine's record may differ. -/
def RecordsOnly (s t : State) : Prop := ∃ e, AlarmsOnly { s with cues := e } t

theorem RecordsOnly.refl (s : State) : RecordsOnly s s := ⟨s.cues, .refl s⟩

theorem RecordsOnly.trans {s t u : State} (h : RecordsOnly s t) (k : RecordsOnly t u) : RecordsOnly s u := by
  obtain ⟨b, h⟩ := h
  obtain ⟨c, k⟩ := k
  obtain ⟨_, _, _, _, _, _, rfl⟩ := h.elim
  obtain ⟨n, p, i, a, st, af, rfl⟩ := k.elim
  exact ⟨c, .of n p i a st af rfl⟩

theorem AlarmsOnly.recordsOnly {s t : State} (h : AlarmsOnly s t) : RecordsOnly s t := ⟨s.cues, h⟩

section
variable {s t : State} (h : RecordsOnly s t)
include h

theorem RecordsOnly.chain (n : ChainNo) : t.chain n = s.chain n := by
  obtain ⟨b, h⟩ := h
  exact AlarmsOnly.chain h n

theorem RecordsOnly.windows : t.windows = s.windows := by
  obtain ⟨b, h⟩ := h
  rw [h]

theorem RecordsOnly.round : t.round = { s.round with notices := t.round.notices } := by
  obtain ⟨b, h⟩ := h
  rw [h]

theorem RecordsOnly.lines : t.take = s.take ∧ t.hold = s.hold ∧ t.pins = s.pins := by
  obtain ⟨b, h⟩ := h
  rw [h]
  exact ⟨rfl, rfl, rfl⟩

theorem RecordsOnly.lateMasked (n : ChainNo) : t.lateMasked n = s.lateMasked n := by
  simp only [State.lateMasked, State.anyWindow, State.windowActive, h.chain, h.windows]

end

theorem deferCue_recordsOnly (s : State) (id : CueId) : RecordsOnly s (s.deferCue id) := by
  unfold State.deferCue
  split
  · exact .refl s
  · have late (u : State) (c : Cue) : AlarmsOnly u (u.raiseLate c) := by
      unfold State.raiseLate
      split
      · exact .refl u
      · exact raise_alarmsOnly ..
    exact ⟨_, late (s.setRuntime _ _) _⟩

theorem defers_recordsOnly : ∀ (l : List CueId) (s : State), RecordsOnly s (l.foldl State.deferCue s)
  | [], s => .refl s
  | i :: l, s => (deferCue_recordsOnly s i).trans (defers_recordsOnly l _)

theorem deferCue_handled (s : State) (id : CueId) : CueHandled s (s.deferCue id) := by
  unfold State.deferCue
  split
  · exact .refl ..
  · exact (setRuntime_handled ..).trans (raiseLate_handled ..)

theorem defers_handled : ∀ (l : List CueId) (s : State), CueHandled s (l.foldl State.deferCue s)
  | [], s => .refl _ _ s
  | i :: l, s => (deferCue_handled s i).trans (defers_handled l _)

/-- A runtime after so many deferrals, one at least (R14, R89). -/
def deferred (r : CueRuntime) (n : Nat) : CueRuntime :=
  { r with
    late := true
    shortfall := min 255 (r.shortfall + n)
    effectField := if r.state = .fired then r.effectField.map (· + BitVec.ofNat 16 n) else r.effectField }

theorem deferred_deferred (r : CueRuntime) (n : Nat) : deferred (deferred r 1) n = deferred r (n + 1) := by
  have sum : min 255 (min 255 (r.shortfall + 1) + n) = min 255 (r.shortfall + (n + 1)) := by omega
  have field (f : Field) : f + BitVec.ofNat 16 1 + BitVec.ofNat 16 n = f + BitVec.ofNat 16 (n + 1) := by
    rw [BitVec.add_assoc, ← BitVec.ofNat_add, Nat.add_comm 1 n]
  simp only [deferred, sum]
  split
  · rw [Option.map_map]
    simp only [Function.comp_def, field]
  · rfl

theorem deferCue_same {s : State} {id : CueId} {c : Cue} (h : s.liveCue id = some c) :
    s.deferCue id = (s.setRuntime id (deferred c.runtime 1)).raiseLate c := by
  have field : (if c.runtime.state == .fired then c.runtime.effectField.map (· + 1) else c.runtime.effectField)
      = if c.runtime.state = .fired then c.runtime.effectField.map (· + BitVec.ofNat 16 1) else c.runtime.effectField :=
    if_congr (by rw [beq_iff_eq]) rfl rfl
  simp only [State.deferCue, h, field]
  rfl

theorem deferCue_liveCue_same {s : State} {id : CueId} {c : Cue} (h : s.liveCue id = some c) :
    (s.deferCue id).liveCue id = some { c with runtime := deferred c.runtime 1 } := by
  rw [deferCue_same h, liveCue_congr (raiseLate_cues ..)]
  exact liveCue_setRuntime_same h _

theorem deferCue_liveCue_other {i j : CueId} (hne : j ≠ i) (s : State) : (s.deferCue i).liveCue j = s.liveCue j := by
  cases h : s.liveCue i with
  | none => simp only [State.deferCue, h]
  | some c =>
    rw [deferCue_same h, liveCue_congr (raiseLate_cues ..)]
    exact liveCue_setRuntime_other hne ..

/-- A cue after the deferrals of its sets (R14, R89). -/
theorem defers_liveCue {id : CueId} : ∀ (l : List CueId) {s : State} {c : Cue}, s.liveCue id = some c →
    (l.foldl State.deferCue s).liveCue id
      = some (if l.count id = 0 then c else { c with runtime := deferred c.runtime (l.count id) })
  | [], _, _, h => h
  | i :: l, s, c, h => by
    rw [List.foldl_cons, List.count_cons]
    by_cases e : i = id
    · subst e
      rw [defers_liveCue l (deferCue_liveCue_same h), if_neg (show ¬ l.count i + (if (i == i) = true then 1 else 0) = 0 by simp)]
      by_cases h0 : l.count i = 0
      · simp [h0]
      · simp [h0, deferred_deferred]
    · rw [defers_liveCue l ((deferCue_liveCue_other (Ne.symm e) s).trans h)]
      simp [e]

/-- A deferred cue is told late, unless its chain's window masks it (R14, R117). -/
theorem defers_late {id : CueId} {l : List CueId} (hm : id ∈ l) {s : State} {c : Cue} (h : s.liveCue id = some c)
    (hl : s.lateMasked c.fields.chain = false) : (l.foldl State.deferCue s).alarmStands srcCueLate = true := by
  obtain ⟨pre, post, rfl⟩ := List.append_of_mem hm
  rw [List.foldl_append, List.foldl_cons]
  refine (defers_handled post _).stands (by simp) (by decide) ?_
  obtain ⟨d, hd, hf⟩ : ∃ d, (pre.foldl State.deferCue s).liveCue id = some d ∧ d.fields.chain = c.fields.chain := by
    refine ⟨_, defers_liveCue pre h, ?_⟩
    split <;> rfl
  have masked : ((pre.foldl State.deferCue s).setRuntime id (deferred d.runtime 1)).lateMasked d.fields.chain = false := by
    rw [hf]
    exact ((defers_recordsOnly pre s).lateMasked _).trans hl
  rw [deferCue_same hd, State.raiseLate, if_neg (Bool.eq_false_iff.mp masked)]
  exact raise_stands ..

/-! ### What the fixing leaves to be told (R14, R182) -/

theorem judgeAlmostFull_told (s : State) : (s.judgeAlmostFull).alarmStands srcLoopLoss = s.alarmStands srcLoopLoss
    ∧ s.snaps.store <+: s.judgeAlmostFull.snaps.store := by
  have told (u : State) (b : Bool) : Handled [srcAlmostFull] [srcAlmostFull] u (toldAlmostFull u b) := by
    unfold toldAlmostFull
    split
    · exact .raise _ _ (by simp)
    · split
      · exact .withdraw _ (by simp)
      · exact .refl ..
  have h := told (s.setSnaps { s.snaps with almostFull := s.snaps.fullNow }) s.snaps.almostFull
  rw [← judgeAlmostFull_eq] at h
  exact ⟨(h.alarmStands_eq (by decide) (by decide) (by decide)).trans rfl, h.stored⟩

theorem reportFixing_recordsOnly (s : State) : RecordsOnly s s.reportFixing :=
  (AlarmsOnly.recordsOnly (judgeAlmostFull_alarmsOnly s)).trans (defers_recordsOnly _ _)

theorem reportFixing_loopLoss (s : State) : s.reportFixing.alarmStands srcLoopLoss = s.alarmStands srcLoopLoss :=
  ((defers_handled _ _).alarmStands_eq (by decide) (by simp) (by decide)).trans (judgeAlmostFull_told s).1

theorem reportFixing_stored (s : State) : s.snaps.store <+: s.reportFixing.snaps.store :=
  (judgeAlmostFull_told s).2.trans (defers_handled _ _).stored

/-! ### The field close of a broken round (R17, R18) -/

theorem countBroken_spares {s : State} (h : s.round.broken ≠ 2) : Spares s (s.countBroken false) := by
  rw [State.countBroken, if_neg Bool.false_ne_true, if_neg h]
  exact ⟨.aside rfl rfl rfl, id⟩

theorem countBroken_third {s : State} (h : s.round.broken = 2) : (s.countBroken false).alarmStands srcLoopLoss = true := by
  rw [State.countBroken, if_neg Bool.false_ne_true, if_pos h]
  exact raise_stands ..

theorem countBroken_stored (s : State) : s.snaps.store <+: (s.countBroken false).snaps.store := by
  have told (n : Nat) : Handled [srcLoopLoss] [] s { s with round := { s.round with broken := n } } := .aside rfl rfl rfl
  have h : Handled [srcLoopLoss] [] s (s.countBroken false) := by
    rw [State.countBroken, if_neg Bool.false_ne_true]
    split
    · exact (told 3).trans (.raise _ _ (by simp))
    · exact told _
  exact h.stored

/-- LOOP LOSS after the field close of a broken round (R18). -/
theorem brokenClose_loopLoss (s : State) (f : Field) :
    (s.round.broken = 2 → (s.fieldClose f false).alarmStands srcLoopLoss = true)
      ∧ (s.round.broken ≠ 2 → (s.fieldClose f false).alarmStands srcLoopLoss = s.alarmStands srcLoopLoss) := by
  have later (u : State) : ((u.closeWorks f).dwellWork).alarmStands srcLoopLoss = u.alarmStands srcLoopLoss :=
    (dwellWork_loopLoss _).trans (closeWorks_spares u f).loopLoss
  have broken : (s.settleChains f).round.broken = s.round.broken := (settleChains_closes s f).broken
  rw [State.fieldClose, later]
  refine ⟨fun h => countBroken_third (broken.trans h), fun h => ?_⟩
  exact (countBroken_spares (fun e => h (broken.symm.trans e))).loopLoss.trans (settleChains_spares s f).loopLoss

theorem dwellWork_stored (s : State) : s.snaps.store <+: s.dwellWork.snaps.store := by
  have request (n : Nat) := (Handled.request (raised := []) (withdrawn := [])
    { s with snaps := { s.snaps with dwellCount := n } } .periodic none).stored
  unfold State.dwellWork
  split
  · exact request 0
  · split <;> exact ⟨[], List.append_nil _⟩

theorem brokenClose_stored (s : State) (f : Field) : s.snaps.store <+: (s.fieldClose f false).snaps.store :=
  calc
    s.snaps.store <+: (s.settleChains f).snaps.store := (settleChains_spares s f).handled.stored
    _ <+: ((s.settleChains f).countBroken false).snaps.store := countBroken_stored _
    _ <+: (((s.settleChains f).countBroken false).closeWorks f).snaps.store := (closeWorks_spares _ f).handled.stored
    _ <+: (s.fieldClose f false).snaps.store := by
      rw [State.fieldClose]
      exact dwellWork_stored _

/-! ### The launch (R11) -/

/-- What a launch leaves of the port and of the snapshot buffer (R11, R13). -/
theorem launch_kept (s : State) : s.launch.port = s.fixRound.port ∧ s.launch.snaps.readout = s.fixRound.snaps.readout
    ∧ s.fixRound.snaps.store <+: s.launch.snaps.store ∧ s.launch.snaps.settings = s.snaps.settings := by
  have reported := CuesOnly.closes (reportFixing_cuesOnly s.fixRound)
  have stored := reportFixing_stored s.fixRound
  have settings : s.fixRound.reportFixing.snaps.settings = s.snaps.settings := reported.snapSettings.trans (fix_buffer_settings s)
  cases h : s.round.phase.unfinished with
  | false =>
    rw [launch_unbroken h]
    exact ⟨reported.port, reported.readout, stored, settings⟩
  | true =>
    rw [launch_broken h]
    have closes := fieldClose_closes s.fixRound.reportFixing s.fieldCount false
    exact ⟨closes.port.trans reported.port, closes.readout.trans reported.readout, stored.trans (brokenClose_stored _ _),
      closes.snapSettings.trans settings⟩

/-- A launch that finds the round before completed, or none (R11, R14). -/
theorem launch_after_complete {s : State} (h : s.round.phase = .noRound ∨ s.round.phase = .complete) :
    s.launch = s.fixRound.reportFixing :=
  launch_unbroken (by rcases h with h | h <;> rw [h] <;> rfl)

theorem launch_over_unfinished {s : State} (h : s.round.phase = .awaited ∨ s.round.phase = .windowOpen) :
    s.launch = s.fixRound.reportFixing.fieldClose s.round.fieldCount false :=
  launch_broken (by rcases h with h | h <;> rw [h] <;> rfl)

/-- The cues of the sets left waiting are deferred, once for each set (R14, R89). -/
theorem launch_defers {s : State} {id : CueId} {c : Cue} (h : s.liveCue id = some c) :
    let sets := s.fixRound.round.sets
    let count := (sets.filter (fun a => a.cue == id)).length
    (count = 0 → s.fixRound.reportFixing.liveCue id = some c)
      ∧ (0 < count → s.fixRound.reportFixing.liveCue id = some { c with runtime := deferred c.runtime count }
          ∧ (s.lateMasked c.fields.chain = false → s.fixRound.reportFixing.alarmStands srcCueLate = true)) := by
  intro sets count
  have hc : (sets.map ActionSet.cue).count id = count := by
    rw [List.count_eq_countP, List.countP_map, List.countP_eq_length_filter]
    rfl
  have judged : s.fixRound.judgeAlmostFull.liveCue id = some c :=
    (liveCue_congr (judgeAlmostFull_alarmsOnly s.fixRound).cues id).trans h
  have told := defers_liveCue (sets.map ActionSet.cue) judged
  rw [hc] at told
  have sets_eq : (s.fixRound.judgeAlmostFull).round.sets = sets := (judgeAlmostFull_alarmsOnly s.fixRound).sets
  refine ⟨fun h0 => by rw [if_pos h0] at told; exact told, fun h0 => ⟨by rw [if_neg h0.ne'] at told; exact told, fun hl => ?_⟩⟩
  have masked : s.fixRound.judgeAlmostFull.lateMasked c.fields.chain = false :=
    ((AlarmsOnly.recordsOnly (judgeAlmostFull_alarmsOnly s.fixRound)).lateMasked _).trans hl
  exact defers_late (List.count_pos_iff.mp (hc ▸ h0)) judged masked

/-- The whole of a launch over a round that has not completed (R17, R18, R36). -/
theorem launch_closes {s : State} (h : s.round.phase = .awaited ∨ s.round.phase = .windowOpen) :
    s.launch.round.broken = min 3 (s.round.broken + 1)
      ∧ (s.round.broken = 2 → s.launch.alarmStands srcLoopLoss = true)
      ∧ (s.round.broken ≠ 2 → s.launch.alarmStands srcLoopLoss = s.alarmStands srcLoopLoss)
      ∧ (∀ n, (s.launch.chain n).tracked = (settleRecord (s.chain n)).record.tracked)
      ∧ LinesSampled s s.launch := by
  have records := reportFixing_recordsOnly s.fixRound
  have broken : s.fixRound.reportFixing.round.broken = s.round.broken := by rw [records.round]; rfl
  obtain ⟨third, same⟩ := brokenClose_loopLoss s.fixRound.reportFixing s.round.fieldCount
  have closes := fieldClose_closes s.fixRound.reportFixing s.round.fieldCount false
  obtain ⟨htake, hhold⟩ := fieldClose_lines s.fixRound.reportFixing s.round.fieldCount false
  obtain ⟨take, hold, pins⟩ := records.lines
  have tracked := fieldClose_tracked s.fixRound.reportFixing s.round.fieldCount false
  rw [launch_over_unfinished h]
  refine ⟨closes.broken.trans (congrArg (fun n => min 3 (n + 1)) broken), fun h2 => third (broken.trans h2), fun h2 => ?_,
    fun n => ?_, ?_, ?_⟩
  · exact (same (fun e => h2 (broken.symm.trans e))).trans (reportFixing_loopLoss s.fixRound)
  · rw [tracked, records.chain]
    rfl
  · rw [htake, take, pins]
    rfl
  · rw [hhold, hold, pins]
    rfl

/-- Settles O18: the filling class by class, the accepted sync, and the launch by what became of the round before. -/
theorem roundKeepsTheBudget : Obligations.RoundKeepsTheBudget := by
  refine ⟨fun s => ?fills, fun s n take hold ha hi => congrArg Host.Outcome.next (fieldSync_accepted ha hi), fun s => ?launch⟩
  case fills =>
    obtain ⟨k, j, m, data, telegrams, fits, hdata, hbuffer, hk, hj, hm, placed, sets, notices, replies⟩ := fix_spec s
    have round : s.roundTelegrams = fieldHeadTelegram (s.fieldCount + 1) s.cues.rehearse s.alarms.alm s.cues.swapPending
        :: s.fix.telegrams ++ [roundEndTelegram (s.fieldCount + 1)] := rfl
    obtain ⟨two, kinds, -⟩ := twoRequests_fit s.snaps (115 - chars (stopOf s
      ++ (s.round.sets.take k).flatMap ActionSet.telegrams ++ (s.round.notices.take j).map noticeTelegram
      ++ (s.round.replies.take m).map replyTelegram))
    rw [← hdata] at two kinds
    refine ⟨?_, rfl, by rw [round]; exact List.getLast?_concat .., k, j, m, data, ?_, two, kinds,
      ⟨fun hn => ?_, fun x hx => ⟨fun h1 => ?_, fun y h0 hy => ?_⟩⟩, hk, hj, hm, placed, sets, notices, replies, rfl⟩
    · have head : telegramChars (fieldHeadTelegram (s.fieldCount + 1) s.cues.rehearse s.alarms.alm s.cues.swapPending) = 7 := rfl
      have last : telegramChars (roundEndTelegram (s.fieldCount + 1)) = 6 := rfl
      change chars s.roundTelegrams ≤ 128
      rw [round, telegrams]
      simp only [List.cons_append, chars_cons, chars_append, chars_nil, head, last] at fits ⊢
      omega
    · rw [round, telegrams]
      rfl
    · exact ⟨hdata.trans (congrArg Prod.fst (twoRequests_none hn)), hbuffer.trans (congrArg Prod.snd (twoRequests_none hn))⟩
    · exact ⟨hdata.trans (congrArg Prod.fst (twoRequests_one hx h1)), hbuffer.trans (congrArg Prod.snd (twoRequests_one hx h1))⟩
    · exact ⟨hdata.trans (congrArg Prod.fst (twoRequests_two hx h0 hy)),
        hbuffer.trans (congrArg Prod.snd (twoRequests_two hx h0 hy))⟩
  case launch =>
    obtain ⟨port, readout, stored, settings⟩ := launch_kept s
    have launched := launch_launched s
    refine ⟨port, rfl, readout, stored, settings, fun h => ?_, fun h => ?_⟩
    · have reported := reportFixing_recordsOnly s.fixRound
      have e := launch_after_complete h
      have round : s.launch.round = { s.fixRound.round with notices := s.launch.round.notices } := by rw [e]; exact reported.round
      have sets : s.launch.round.sets = s.fixRound.round.sets := by rw [round]
      refine ⟨e, by rw [round], sets, by rw [round], by rw [round]; rfl, fun id c hc => ?_⟩
      rw [sets, e]
      exact launch_defers hc
    · obtain ⟨broken, third, same, tracked, htake, hhold⟩ := launch_closes h
      refine ⟨launched.fieldCount, launched.phase, broken, third, same, tracked, htake, hhold, ?_⟩
      rw [launch_over_unfinished h]
      exact fieldClose_order ..

end Sys2Proof.Proofs.Launching
end

section
/-! The receiver reads what the shifter shows on the line (R1 to R3). -/

namespace Sys2Proof.Proofs.Reception

open Sys2Proof Sys2Proof.Machine Sys2Proof.Proofs.Timing

/-! ### Characters of sixteen samples to a bit (R2, R3) -/

/-- The start bit: its fall is found at its second sample, its middle eight samples later (R2). -/
theorem rxRun_start (rest : List Bool) :
    rxRun true true .waiting (List.replicate 16 false ++ rest) = rxRun false false (.inCharacter [] 10 0) rest := rfl

/-- A data or parity bit is sampled in its middle, whatever the bit before it (R2). -/
theorem rxRun_bit {bits : List Bool} (h : bits.length < 9) (x y : Bool) (g : Nat) (rest : List Bool) :
    rxRun y y (.inCharacter bits 10 g) (List.replicate 16 x ++ rest) = rxRun x x (.inCharacter (bits ++ [x]) 10 g) rest := by
  cases x <;> cases y <;> simp [List.replicate, rxRun, rxStep, twoSample, h]

/-- The stop bit ends the character, and the receiver waits on the mark that is left of it (R2, R3). -/
theorem rxRun_stop {bits : List Bool} (h : bits.length = 9) (y : Bool) (g : Nat) (rest : List Bool) :
    rxRun y y (.inCharacter bits 10 g) (List.replicate 16 true ++ rest)
      = { gap := g, data := dataByte bits, bad := !oddParity bits } :: rxRun true true .waiting rest := by
  cases y <;> simp [List.replicate, rxRun, rxStep, twoSample, h]

/-- The nine bits between start and stop (R1). -/
def nineBits (b : Byte) : List Bool := (List.range 9).map (fun i => lineBit b (i + 1))

theorem dataByte_nineBits : ∀ b : Byte, dataByte (nineBits b) = b := by decide

theorem oddParity_nineBits : ∀ b : Byte, oddParity (nineBits b) = true := by decide

/-- The bits between start and stop, one after another (R2). -/
theorem rxRun_bits (g : Nat) (rest : List Bool) : ∀ (l bits : List Bool) (y : Bool), bits.length + l.length ≤ 9 →
    rxRun y y (.inCharacter bits 10 g) (l.flatMap (List.replicate 16) ++ rest)
      = rxRun (l.getLastD y) (l.getLastD y) (.inCharacter (bits ++ l) 10 g) rest
  | [], bits, y, _ => by simp
  | x :: l, bits, y, h => by
    rw [List.length_cons] at h
    rw [List.flatMap_cons, List.append_assoc, rxRun_bit (by omega), rxRun_bits g rest l _ x (by simp; omega), List.append_assoc,
      List.getLastD_cons]
    rfl

/-- One character on the line is read as its byte (R1 to R3). -/
theorem rxRun_char (b : Byte) (rest : List Bool) :
    rxRun true true .waiting (charLevels b ++ rest)
      = { gap := 0, data := b, bad := false } :: rxRun true true .waiting rest := by
  have levels : charLevels b ++ rest = List.replicate 16 false ++ ((nineBits b).flatMap (List.replicate 16)
      ++ (List.replicate 16 true ++ rest)) := by
    have eleven : List.range 11 = 0 :: ((List.range 9).map (· + 1) ++ [10]) := rfl
    have start : lineBit b 0 = false := rfl
    have stop : lineBit b 10 = true := rfl
    rw [charLevels, eleven, nineBits, List.flatMap_cons, List.flatMap_append, List.flatMap_singleton, List.flatMap_map,
      List.flatMap_map, start, stop, List.append_assoc, List.append_assoc]
  have nine : (nineBits b).length = 9 := by simp [nineBits]
  rw [levels, rxRun_start, rxRun_bits 0 (List.replicate 16 true ++ rest) (nineBits b) [] false (by simp [nine]),
    List.nil_append, rxRun_stop nine, dataByte_nineBits,
    oddParity_nineBits]
  rfl

theorem rxRun_chars : ∀ bytes : List Byte, rxRun true true .waiting (bytes.flatMap charLevels) = goodChars bytes
  | [] => rfl
  | b :: bytes => by
    rw [List.flatMap_cons, rxRun_char, rxRun_chars bytes]
    rfl

/-! ### What the shifter shows (R1) -/

/-- In a list of parts of one length each item stands in the part that its index names. -/
theorem getElem?_flatMap {α β : Type} {f : α → List β} {n : Nat} (hn : 0 < n) (hf : ∀ a, (f a).length = n) :
    ∀ (l : List α) (i : Nat), (l.flatMap f)[i]? = l[i / n]?.bind (fun a => (f a)[i % n]?)
  | [], i => by simp
  | a :: l, i => by
    rw [List.flatMap_cons]
    by_cases h : i < n
    · rw [List.getElem?_append_left (by rw [hf]; exact h), Nat.div_eq_of_lt h, Nat.mod_eq_of_lt h]
      rfl
    · obtain ⟨k, rfl⟩ := Nat.exists_eq_add_of_le (Nat.le_of_not_lt h)
      rw [List.getElem?_append_right (by rw [hf]; omega), hf, Nat.add_sub_cancel_left, getElem?_flatMap hn hf l,
        Nat.add_div_left k hn, Nat.add_mod_left]
      rfl

theorem charLevels_length (b : Byte) : (charLevels b).length = 176 := by
  simp [charLevels]

theorem charLevels_level (b : Byte) {i : Nat} (h : i < 176) : (charLevels b)[i]? = some (lineBit b (i / 16)) := by
  rw [charLevels, getElem?_flatMap (n := 16) (by decide) (fun _ => List.length_replicate),
    List.getElem?_range (by omega), Option.bind_some, List.getElem?_replicate, if_pos (Nat.mod_lt _ (by decide))]

theorem flatMap_charLevels_level {bytes : List Byte} {i : Nat} (h : i < 176 * bytes.length) :
    (bytes.flatMap charLevels)[i]? = some (shiftOut [bytes] i).ltx := by
  have hi : i / 176 < bytes.length := Nat.div_lt_of_lt_mul h
  have out : shiftOut [bytes] i = { rounds := [bytes.drop (i / 176)], position := i % 176 } := by
    rw [shiftOut, charSamples, if_neg (Nat.not_le.mpr h)]
  rw [getElem?_flatMap (n := 176) (by decide) charLevels_length, List.getElem?_eq_getElem hi, out, Shifter.ltx,
    List.drop_eq_getElem_cons hi]
  exact charLevels_level _ (Nat.mod_lt _ (by decide))

/-! ### The idle sample period (R2) -/

/-- With FLD steady and no interval kept a sample period brings what the receiver makes of it (R2). -/
theorem sampleAll_steady {s : State} (hf : s.round.fldFiltered = true) (hs : s.round.fldSample = true) (hx : s.pins.fld = true)
    (hk : s.round.keptInterval = none) :
    s.sampleAll = s.sampleReceiver.1.happenAll (s.sampleReceiver.2.map .character).toList := by
  have high : s.sampleReceiver.1.sampleFld = (s.sampleReceiver.1, false) := sampleFld_high hf hs hx
  have undue : s.sampleReceiver.1.flywheelDue = false := by
    refine Bool.eq_false_iff.mpr fun e => ?_
    obtain ⟨-, i, l, hi, -⟩ := (flywheelDue_iff _).mp e
    exact absurd (hk.symm.trans hi) nofun
  simp only [State.sampleAll, high, undue, Bool.false_eq_true, if_false, List.nil_append]

/-- Settles O10: character by character over the samples of its bits; a round's levels by the shifter's position; and the step. -/
theorem receiverReadsWhatShifterSends : Obligations.ReceiverReadsWhatShifterSends := by
  refine ⟨rxRun_chars, fun bytes i hi => flatMap_charLevels_level hi, fun s p rest hp hi ha hr hf hs hx hk => ?_⟩
  have steady := sampleAll_steady (s := { s.elapse 1 with pins := p, inputs := rest }) hf hs hx hk
  rw [step_samples hp hi ha hr, steady]
  refine ⟨fun hn => ?_, fun c hc => ?_⟩
  · have : { s.elapse 1 with pins := p, inputs := rest }.sampleReceiver.2 = none := hn
    rw [this]
    rfl
  · have : { s.elapse 1 with pins := p, inputs := rest }.sampleReceiver.2 = some c := hc
    rw [this]
    rfl

end Sys2Proof.Proofs.Reception
end

section
/-! Settling: the rows of Table 2-4, a chain that becomes stale or ABSENT, and what a field close hands on (R36 to R41). -/

namespace Sys2Proof.Proofs.Settling

open Sys2Proof Sys2Proof.Machine Sys2Proof.Proofs.Fates Sys2Proof.Proofs.Groups Sys2Proof.Proofs.Judging Sys2Proof.Proofs.Closing

/-! ### The rows of Table 2-4 -/

/-- A missing record that does not coast keeps its position (R36). -/
def heldRecord (r : ChainRecord) : ChainRecord := { r with missingCount := min 25 (r.missingCount + 1) }

/-- A missing record that coasts moves on to its successor (R37). -/
def movedRecord (r : ChainRecord) : ChainRecord := { r.coast with missingCount := min 25 (r.missingCount + 1) }

/-- What coasting needs (R37). -/
def Coasts (r : ChainRecord) : Prop := r.state = .atSpeed ∧ r.stale = false ∧ r.coastCount < 2

/-- A missing record after its step, coasting or not. -/
def missedRecord (r : ChainRecord) (coasts : Bool) : ChainRecord := if coasts then movedRecord r else heldRecord r

section
variable {r : ChainRecord}

theorem settleRecord_unexamined (h : ¬ (r.config.enabled = true ∧ r.state ≠ .absent)) : settleRecord r = { record := r } := by
  refine if_pos ?_
  rw [Bool.or_eq_true, Bool.not_eq_true', beq_iff_eq]
  by_contra hc
  rw [not_or] at hc
  exact h ⟨by simpa using hc.1, hc.2⟩

theorem settleRecord_heard (he : r.config.enabled = true) (hs : r.state ≠ .absent) (hh : r.heard = true) :
    settleRecord r = { record := { r with heard := false } } := by
  simp [settleRecord, he, hs, hh]

theorem coasts_decided {coasts : Bool} (h : coasts = true ↔ Coasts r) :
    (r.state == .atSpeed && !r.stale && decide (r.coastCount < 2)) = coasts := by
  rw [Bool.eq_iff_iff, h, Coasts]
  simp [and_assoc]

/-- Whether this missing field is the third (R38). -/
def isThird (r : ChainRecord) : Bool := min 25 (r.missingCount + 1) == 3 && !r.stale

/-- The record with the stale flag set at the third missing field (R38). -/
def staleAt (third : Bool) (r : ChainRecord) : ChainRecord := if third then { r with stale := true } else r

section
variable (he : r.config.enabled = true) (hs : r.state ≠ .absent) (hh : r.heard = false) {coasts : Bool}
  (hc : coasts = true ↔ Coasts r)
include he hs hh hc

/-- A missing field: the step, the third field's staleness, the twenty-fifth field's loss (R36 to R39). -/
theorem settleRecord_missed : settleRecord r =
    if min 25 (r.missingCount + 1) = 25 then
      { record := (staleAt (isThird r) (missedRecord r coasts)).lost, stale := isThird r, absent := true }
    else { record := staleAt (isThird r) (missedRecord r coasts), coasted := coasts && !isThird r, stale := isThird r } := by
  rw [settleRecord, coasts_decided hc, if_neg (by simp [he, hs]), if_neg (by simp [hh])]
  cases coasts <;> rfl

/-- A missing record before its third field, or stale already (R36, R37). -/
theorem settleRecord_missing (hm : r.missingCount < 24) (hn : r.missingCount ≠ 2 ∨ r.stale = true) :
    settleRecord r = { record := missedRecord r coasts, coasted := coasts } := by
  have third : isThird r = false := by
    rcases hn with hn | hn
    · have : min 25 (r.missingCount + 1) ≠ 3 := by omega
      simp [isThird, this]
    · simp [isThird, hn]
  rw [settleRecord_missed he hs hh hc, if_neg (by omega), third, Bool.not_false, Bool.and_true]
  rfl

/-- The third missing field (R38). -/
theorem settleRecord_third (hm : r.missingCount = 2) (hn : r.stale = false) :
    settleRecord r = { record := { missedRecord r coasts with stale := true }, stale := true } := by
  have third : isThird r = true := by simp [isThird, hm, hn]
  rw [settleRecord_missed he hs hh hc, if_neg (by omega), third, Bool.not_true, Bool.and_false]
  rfl

/-- The twenty-fifth missing field (R39). -/
theorem settleRecord_lost (hm : 24 ≤ r.missingCount) :
    settleRecord r = { record := (missedRecord r coasts).lost, absent := true } := by
  have m : min 25 (r.missingCount + 1) = 25 := by omega
  have third : isThird r = false := by simp [isThird, m]
  rw [settleRecord_missed he hs hh hc, if_pos m, third]
  rfl

end

end

theorem exists_coasts (r : ChainRecord) : ∃ coasts : Bool, coasts = true ↔ Coasts r := by
  by_cases h : Coasts r
  · exact ⟨true, by simp [h]⟩
  · exact ⟨false, by simp [h]⟩

/-- A missed record keeps its state and its flag, and has counted one field more. -/
theorem missedRecord_keeps (r : ChainRecord) (coasts : Bool) : (missedRecord r coasts).state = r.state
    ∧ (missedRecord r coasts).stale = r.stale ∧ (missedRecord r coasts).missingCount = min 25 (r.missingCount + 1) := by
  cases coasts <;> exact ⟨rfl, rfl, rfl⟩

/-! ### One chain's settling, taken alone (R38, R39) -/

theorem groupTrouble_chain {c : Cause} (hc : FourCause c) (s : State) (n m : ChainNo) :
    (s.groupTrouble n c).chain m = s.chain m := by
  unfold State.groupTrouble
  split
  · exact (airFault_causesOnly hc ..).chain m
  · rfl

theorem groupTrouble_stands (s : State) (n : ChainNo) (c : Cause) {x : Source} (h : s.alarmStands x = true) :
    (s.groupTrouble n c).alarmStands x = true := by
  unfold State.groupTrouble
  split
  · exact airFault_keeps_standing _ _ _ _ h
  · exact h

theorem settleOne_stale {s : State} {n : ChainNo} {q : ChainRecord}
    (h : settleRecord (s.chain n) = { record := q, stale := true }) : s.settleOne n
      = ((s.setChain n q).raise (srcChainSilent n) { chain := some n, field := s.fieldCount }).groupTrouble n .silent := by
  rw [State.settleOne, h]
  rfl

theorem settleOne_lost {s : State} {n : ChainNo} {q : ChainRecord}
    (h : settleRecord (s.chain n) = { record := q, absent := true }) : s.settleOne n
      = ((s.setChain n q).failFired n .chainLost).stateChange n (s.chain n).state .absent none := by
  rw [State.settleOne, h]
  rfl

theorem settleOne_frame (s : State) (n : ChainNo) : TrackingOnly s (s.settleOne n) :=
  (TrackingOnly.setChain ..).trans (settleOne_spec s n).1

/-- The third missing field taken alone (R38). -/
theorem settleOne_becomesStale {s : State} {n : ChainNo} (he : (s.chain n).config.enabled = true) (hs : (s.chain n).state ≠ .absent)
    (hh : (s.chain n).heard = false) (hn : (s.chain n).stale = false) (hm : (s.chain n).missingCount = 2) :
    exec (.chainStale n) s = .next (s.settleOne n) ∧ ((s.settleOne n).chain n).stale = true
      ∧ ((s.settleOne n).chain n).missingCount = 3 ∧ ((s.settleOne n).chain n).state = (s.chain n).state
      ∧ (s.settleOne n).alarmStands (srcChainSilent n) = true ∧ (∀ m, m ≠ n → (s.settleOne n).chain m = s.chain m)
      ∧ (s.settleOne n).cues = s.cues := by
  obtain ⟨coasts, hc⟩ := exists_coasts (s.chain n)
  have third := settleRecord_third he hs hh hc hm hn
  obtain ⟨state, -, count⟩ := missedRecord_keeps (s.chain n) coasts
  have chain (m : ChainNo) : (s.settleOne n).chain m
      = (s.setChain n { missedRecord (s.chain n) coasts with stale := true }).chain m := by
    rw [settleOne_stale third, groupTrouble_chain four_silent, (raise_alarmsOnly ..).chain]
  have own := (chain n).trans (State.chain_setChain_self ..)
  refine ⟨congrArg Host.Outcome.next (if_pos (by rw [third])), by rw [own], ?_, ?_, ?_, fun m hne => ?_, ?_⟩
  · rw [own]
    exact count.trans (by rw [hm]; rfl)
  · rw [own]
    exact state
  · rw [settleOne_stale third]
    exact groupTrouble_stands _ _ _ (raise_stands ..)
  · rw [chain, State.chain_setChain_ne _ _ _ _ hne]
  · rw [settleOne_stale third, groupTrouble_cues, raise_cues]
    rfl

/-- The twenty-fifth missing field taken alone (R39, R101). -/
theorem settleOne_becomesAbsent {s : State} {n : ChainNo} (he : (s.chain n).config.enabled = true)
    (hs : (s.chain n).state ≠ .absent) (hh : (s.chain n).heard = false) (hm : (s.chain n).missingCount = 24) :
    exec (.chainAbsent n) s = .next (s.settleOne n) ∧ ((s.settleOne n).chain n).state = .absent
      ∧ ((s.settleOne n).chain n).faultCause = .none ∧ ((s.settleOne n).chain n).missingCount = 25
      ∧ ((s.settleOne n).chain n).slipCount = 0 ∧ ((s.settleOne n).chain n).coastCount = 0
      ∧ ((s.settleOne n).chain n).stale = (s.chain n).stale
      ∧ (∀ m, m ≠ n → ((s.settleOne n).chain m).tracked = (s.chain m).tracked)
      ∧ (s.cues.swapPending = false → bankSound s.cues.live = true → ∀ id c, s.liveCue id = some c → c.runtime.state = .fired →
          c.fields.chain = n → (s.settleOne n).fateOf id = some (.failed, .chainLost)) := by
  obtain ⟨coasts, hc⟩ := exists_coasts (s.chain n)
  have lost := settleRecord_lost he hs hh hc (by omega)
  obtain ⟨-, stale, count⟩ := missedRecord_keeps (s.chain n) coasts
  have tracked := (settleOne_spec s n).2
  rw [lost] at tracked
  have own := tracked n
  rw [State.chain_setChain_self] at own
  have field {α : Type} (f : ChainRecord → α) (hf : ∀ r : ChainRecord, f r.tracked = f r) :
      f ((s.settleOne n).chain n) = f (missedRecord (s.chain n) coasts).lost := by
    rw [← hf, own, hf]
  refine ⟨congrArg Host.Outcome.next (if_pos (by rw [lost])), field (·.state) fun _ => rfl, field (·.faultCause) fun _ => rfl,
    (field (·.missingCount) fun _ => rfl).trans (count.trans (by rw [hm]; rfl)), field (·.slipCount) fun _ => rfl,
    field (·.coastCount) fun _ => rfl, (field (·.stale) fun _ => rfl).trans stale, fun m hne => ?_, fun hp hb id c hid hf hch => ?_⟩
  · rw [tracked m, State.chain_setChain_ne _ _ _ _ hne]
  · rw [settleOne_lost lost]
    exact lost_fate (s := s.setChain n (missedRecord (s.chain n) coasts).lost) (.of_bankSound hp hb) hid hf hch ..

/-- Settles O26: the rows of the settling, and its handing on chain by chain as it is defined. -/
theorem silentChainGoesStaleThenAbsent : Obligations.SilentChainGoesStaleThenAbsent := by
  refine ⟨fun s n he hs hh => ⟨fun hn hm => ?stale, fun hm => ?absent⟩, fun r => ?rows, fun s f => ?close⟩
  case stale =>
    obtain ⟨e, h1, h2, h3, h4, h5, h6⟩ := settleOne_becomesStale he hs hh hn hm
    exact ⟨_, e, h1, h2, h3, h4, h5, h6, settleOne_frame s n⟩
  case absent =>
    obtain ⟨e, h1, h2, h3, h4, h5, h6, h7, h8⟩ := settleOne_becomesAbsent he hs hh hm
    exact ⟨_, e, h1, h2, h3, h4, h5, h6, h7, settleOne_frame s n, h8⟩
  case rows =>
    have yes (h : Coasts r) : true = true ↔ Coasts r := by simp [h]
    have no (h : ¬ Coasts r) : false = true ↔ Coasts r := by simp [h]
    refine ⟨settleRecord_unexamined, fun he hh => settleRecord_heard he.1 he.2 hh,
      fun h hm hn => ⟨fun hc => ?_, fun hc => ?_⟩, fun h hm hn => ⟨fun hc => ?_, fun hc => ?_⟩,
      fun h hm => ⟨fun hc => ?_, fun hc => ?_⟩⟩
    all_goals obtain ⟨⟨he, hs⟩, hh⟩ := h
    · exact settleRecord_missing he hs hh (yes hc) hm hn
    · exact settleRecord_missing he hs hh (no hc) hm hn
    · exact settleRecord_third he hs hh (yes hc) hm hn
    · exact settleRecord_third he hs hh (no hc) hm hn
    · exact settleRecord_lost he hs hh (yes hc) hm
    · exact settleRecord_lost he hs hh (no hc) hm
  case close =>
    exact ⟨s.settleRecords f, settleRecords_chain s f, fun n => by simp [State.settleRecords], rfl, rfl⟩

end Sys2Proof.Proofs.Settling
end

section
/-! A CHAIN REPORT received: what it makes of its record and of the FIRED cues of its chain (R24, R25, R92, R94, R97 to R101). -/

namespace Sys2Proof.Proofs.Reports

open Sys2Proof Sys2Proof.Machine Sys2Proof.Proofs.Fates Sys2Proof.Proofs.CloseCues Sys2Proof.Proofs.Judging
  Sys2Proof.Proofs.Tracking Sys2Proof.Proofs.Telling Sys2Proof.Proofs.Loop

/-! ### What a judging finds of a FIRED cue -/

/-- What a judging of a FIRED cue finds: it is confirmed, contradicted, or neither yet. -/
inductive Finding where
  | done | contradicted | stays

/-- What the finding makes of the cue. -/
def Finding.applied (x : Finding) (c : Cue) : Cue :=
  match x with
  | .done => { c with runtime := { c.runtime with state := .done, effectField := none, expected := none } }
  | .contradicted =>
    { c with runtime := { c.runtime with state := .failed, cause := .contradicted, effectField := none, expected := none } }
  | .stays => c

/-- The acting on the finding. -/
def Finding.act (x : Finding) (s : State) (c : Cue) : Effect :=
  match x with
  | .done => s.confirmCue c
  | .contradicted => s.failCue c c.runtime .contradicted
  | .stays => s.quiet

theorem Finding.act_liveCue (x : Finding) {s : State} (hp : s.cues.swapPending = false) {c : Cue}
    (hc : s.liveCue c.fields.id = some c) : (x.act s c).state.liveCue c.fields.id = some (x.applied c) := by
  cases x
  · exact confirmCue_liveCue hp hc
  · exact failCue_liveCue hp hc ..
  · exact hc

theorem Finding.applied_finished (x : Finding) {c : Cue} (hf : c.runtime.state = .fired) :
    (x.applied c).runtime.state.finished = true := by
  cases x
  · rfl
  · rfl
  · change c.runtime.state.finished = true
    rw [hf]
    rfl

/-- What an arrival finds of a cue whose effect field has come (R94, R98, R99). -/
def arrivalFinding (v : Reported) (c : CueFields) : Finding :=
  match c.kind with
  | .park =>
    match v.motor with
    | .spooling => .stays
    | .off => if v.frame = c.frame then .done else .contradicted
    | .runUp | .atSpeed | .runningDown => .contradicted
  | .stop => if v.motor = .off then .done else .stays
  | .shutter => if v.dowser = (c.sense != some .closing) then .done else .stays
  | .start | .changeover | .mark => .stays

theorem Finding.act_ite {p : Prop} [Decidable p] (x y : Finding) (s : State) (c : Cue) :
    (if p then x else y).act s c = if p then x.act s c else y.act s c := by
  split <;> rfl

theorem judgeByArrival_eq (s : State) (c : Cue) (f : Field) : s.judgeByArrival c f =
    (if judges c.runtime.effectField f then arrivalFinding (s.chain c.fields.chain).reported c.fields else .stays).act s c := by
  rw [Finding.act_ite]
  refine if_congr Iff.rfl ?_ rfl
  cases hk : c.fields.kind
  case park => cases hm : (s.chain c.fields.chain).reported.motor <;> simp only [arrivalFinding, hk, hm, Finding.act_ite] <;> rfl
  case stop => simp only [arrivalFinding, hk, Finding.act_ite, beq_iff_eq]; rfl
  case shutter => simp only [arrivalFinding, hk, Finding.act_ite, beq_iff_eq]; rfl
  all_goals simp only [arrivalFinding, hk]; rfl

/-- What an entry finds of a START, its effect field come or not (R97). -/
def entryFinding (entered : ChainState) (judged : Bool) : Finding :=
  match entered with
  | .atSpeed => .done
  | .idle | .cued | .spooling | .runDown => if judged then .contradicted else .stays
  | .runUp | .absent | .faulted => .stays

theorem judgeByEntry_eq (s : State) (c : Cue) (entered : ChainState) (f : Field) :
    s.judgeByEntry c entered (some f) = (entryFinding entered (judges c.runtime.effectField f)).act s c := by
  cases entered <;> simp only [State.judgeByEntry, entryFinding] <;> try rfl
  all_goals split <;> rfl

/-- A task that judges each FIRED cue of a chain as found (R92, R97). -/
theorem carryOut_finds {s : State} (h : Calm s) {n : ChainNo} {task : CueId → Task}
    (htask : ∀ j, Tasks.named (task j) = some (j, [.fired])) {i : CueId} {c : Cue} (hc : s.liveCue i = some c)
    (hf : c.runtime.state = .fired) (hn : c.fields.chain = n) (x : Finding)
    (own : ∀ u, CuesOnly s u → u.liveCue i = some c → u.runTask (task i) = x.act u c) :
    (s.carryOut ((s.firedOf n).map task)).liveCue i = some (x.applied c) := by
  obtain ⟨d, hd, rfl⟩ := carryOut_own h (liveIds_nodup h _) htask
    (show i ∈ s.firedOf n from mem_liveIds hc (by simp [hf, hn])) hc (by rw [hf]; rfl)
    (Q := fun d => d = x.applied c) fun u hu hcu hlive => by
      obtain ⟨-, rfl⟩ := liveCue_mem hlive
      rw [own u hcu hlive]
      exact ⟨_, x.act_liveCue hu.1 hlive, x.applied_finished hf, rfl⟩
  exact hd

/-- An update of a report judges each FIRED cue of its chain by the report (R92). -/
theorem updateNotice_judges {s : State} (h : Calm s) {n : ChainNo} (f : Field) {i : CueId} {c : Cue} (hc : s.liveCue i = some c)
    (hf : c.runtime.state = .fired) (hn : c.fields.chain = n) : (s.updateNotice n f true).liveCue i
      = some ((if judges c.runtime.effectField f then arrivalFinding (s.chain n).reported c.fields else .stays).applied c) := by
  have fired : c.runtime.state.finished = true := by rw [hf]; rfl
  have calm : Calm (s.recordUpdate n f) := h
  have evaluated (ids : List CueId) : ((s.recordUpdate n f).carryOut (ids.map .evaluate)).liveCue i = some c := by
    refine carryOut_spares calm hc fired fun t ht => ?_
    obtain ⟨j, -, rfl⟩ := List.mem_map.mp ht
    simp [Acts, Tasks.named, hf]
  unfold State.updateNotice
  dsimp only
  rw [if_pos rfl]
  generalize hids : (s.recordUpdate n f).liveIds _ = ids
  refine carryOut_finds (carryOut_calm calm _) (fun _ => rfl) (evaluated ids) hf hn _ fun u hu hlive => ?_
  have reported : (u.chain n).reported = (s.chain n).reported :=
    ((carryOut_cuesOnly (s.recordUpdate n f) (ids.map .evaluate)).trans hu).reported n
  rw [← reported, ← hn, ← judgeByArrival_eq]
  exact onCue_acts hlive (by simp [hf]) _

/-- An entry judges each FIRED START of its chain (R97). -/
theorem entryNotice_judges {s : State} (h : Calm s) {n : ChainNo} (entered : ChainState) (f : Field) {i : CueId} {c : Cue}
    (hc : s.liveCue i = some c) (hf : c.runtime.state = .fired) (hn : c.fields.chain = n) :
    (s.entryNotice n entered (some f)).liveCue i
      = some ((if c.fields.kind = .start then entryFinding entered (judges c.runtime.effectField f) else .stays).applied c) := by
  refine carryOut_finds h (fun _ => rfl) hc hf hn _ fun u _ hlive => ?_
  refine (onCue_acts hlive (by simp [hf]) _).trans ?_
  rw [Finding.act_ite, ← judgeByEntry_eq]
  exact if_congr beq_iff_eq rfl rfl

/-- What a report and the entry that it brings make of a FIRED cue of the chain (R92, R97). -/
def reportedCue (v : Reported) (left entered : ChainState) (f : Field) (c : Cue) : Cue :=
  if c.fields.kind = .start then
    if left = entered then c else (entryFinding entered (judges c.runtime.effectField f)).applied c
  else (if judges c.runtime.effectField f then arrivalFinding v c.fields else .stays).applied c

theorem Finding.applied_cases (x : Finding) (c : Cue) : x.applied c = c ∨ Ended (x.applied c) := by
  cases x
  · exact .inr (.inl rfl)
  · exact .inr (.inr (.inl rfl))
  · exact .inl rfl

theorem handed_judges {s : State} (h : Calm s) {n : ChainNo} (f : Field) {i : CueId} {c : Cue} (hc : s.liveCue i = some c)
    (hf : c.runtime.state = .fired) (hn : c.fields.chain = n) (left entered : ChainState) :
    ((s.handUpdate n f true).stateChange n left entered (some f)).liveCue i
      = some (reportedCue (s.chain n).reported left entered f c) := by
  have calm := (handUpdate_spared s n f true).calm h
  have judged : (s.handUpdate n f true).liveCue i = _ := (liveCue_congr (groupUpdate_cues ..) i).trans
    (updateNotice_judges h f hc hf hn)
  have start (hk : c.fields.kind = .start) : arrivalFinding (s.chain n).reported c.fields = .stays := by
    simp only [arrivalFinding, hk]
  generalize hx : (if judges c.runtime.effectField f then arrivalFinding (s.chain n).reported c.fields else Finding.stays) = x
    at judged
  have outcome : reportedCue (s.chain n).reported left entered f c = if c.fields.kind = .start then
      if left = entered then c else (entryFinding entered (judges c.runtime.effectField f)).applied c else x.applied c := by
    rw [reportedCue, hx]
  rw [outcome]
  by_cases he : left = entered
  · rw [State.stateChange, if_pos he, judged]
    by_cases hk : c.fields.kind = .start
    · rw [start hk, ite_self] at hx
      rw [if_pos hk, if_pos he, ← hx]
      rfl
    · rw [if_neg hk]
  · rw [State.stateChange, if_neg he, liveCue_congr (groupEntry_cues ..)]
    by_cases hk : c.fields.kind = .start
    · rw [start hk, ite_self] at hx
      subst hx
      rw [entryNotice_judges calm entered f (c := c) judged hf hn, if_pos hk, if_pos hk, if_neg he]
    · rw [if_neg hk]
      rcases x.applied_cases c with e | e
      · rw [e] at judged ⊢
        rw [entryNotice_judges calm entered f judged hf hn, if_neg hk]
        rfl
      · exact (carryOut_spared ..).ended calm i _ judged e

/-! ### An arrival (R25, R30, R40, R41) -/

/-- The record of an arrival stored, and CHAIN n SILENT withdrawn (R25). -/
def arrived (s : State) (n : ChainNo) (v : Reported) : State :=
  (s.setChain n (arrivalRecord (s.chain n) v (s.cadenceMasked n v.frame))).withdraw (srcChainSilent n)

/-- The state that the arrival enters. -/
def enteredState (s : State) (n : ChainNo) (v : Reported) : ChainState :=
  (arrivalRecord (s.chain n) v (s.cadenceMasked n v.frame)).state

/-- The arrival makes the chain FAULTED (R30). -/
def Faults (s : State) (n : ChainNo) (v : Reported) : Prop := (s.chain n).state ≠ .faulted ∧ enteredState s n v = .faulted

theorem arrival_eq (s : State) (n : ChainNo) (v : Reported) : ∃ u : State,
    (Faults s n v → u = (arrived s n v).enterFaulted n) ∧ (¬ Faults s n v → u = arrived s n v)
      ∧ u.fieldCount = s.fieldCount
      ∧ s.arrival n v = (u.handUpdate n u.fieldCount true).stateChange n (s.chain n).state (enteredState s n v)
        (some u.fieldCount) := by
  have entered : ((s.setChain n (arrivalRecord (s.chain n) v (s.cadenceMasked n v.frame))).chain n).state = enteredState s n v := by
    rw [State.chain_setChain_self]; rfl
  have count : (arrived s n v).fieldCount = s.fieldCount := (withdraw_alarmsOnly ..).fieldCount
  have faults : ((s.chain n).state != .faulted && enteredState s n v == .faulted) = true ↔ Faults s n v := by
    rw [Bool.and_eq_true, bne_iff_ne, beq_iff_eq]; rfl
  refine ⟨if (s.chain n).state != .faulted && enteredState s n v == .faulted then (arrived s n v).enterFaulted n else arrived s n v,
    fun h => if_pos (faults.mpr h), fun h => if_neg (mt faults.mp h), ?_, ?_⟩
  · split
    · exact (enterFaulted_handsOn ..).1.fieldCount.trans count
    · exact count
  · rw [State.arrival, entered]
    rfl

theorem arrived_cues (s : State) (n : ChainNo) (v : Reported) : (arrived s n v).cues = s.cues := (withdraw_alarmsOnly ..).cues

theorem arrived_reported (s : State) (n : ChainNo) (v : Reported) : ((arrived s n v).chain n).reported = v := by
  obtain ⟨st, sl, fc, rd, e⟩ := arrival_stored (s.chain n) v (s.cadenceMasked n v.frame)
  rw [arrived, (withdraw_alarmsOnly ..).chain, State.chain_setChain_self, e]
  rfl

/-- The update of the chain is of the field count in force (R45). -/
theorem arrival_updateField (s : State) (n : ChainNo) (v : Reported) : (s.arrival n v).cues.updateField[n] = some s.fieldCount := by
  obtain ⟨u, -, -, hu, e⟩ := arrival_eq s n v
  have changed (w : State) (x y : ChainState) (a : Option Field) :
      (w.stateChange n x y a).cues.updateField = w.cues.updateField := by
    unfold State.stateChange
    split
    · rfl
    · rw [groupEntry_cues]
      exact (carryOut_cuesOnly ..).updateField
  have noticed : (u.updateNotice n u.fieldCount true).cues.updateField = (u.recordUpdate n u.fieldCount).cues.updateField :=
    ((carryOut_cuesOnly ..).trans (carryOut_cuesOnly ..)).updateField
  rw [e, changed, State.handUpdate, groupUpdate_cues, noticed, hu]
  simp [State.recordUpdate]

theorem enterFaulted_tells (s : State) (n : ChainNo) : Tells (srcChainFault n :: handSources) [] s (s.enterFaulted n) := by
  have hand {a b : State} (h : Tells handSources [] a b) : Tells (srcChainFault n :: handSources) [] a b :=
    h.mono (List.subset_cons_self ..) (List.Subset.refl _)
  exact ((Tells.raise _ _ List.mem_cons_self).trans (hand (carryOut_hands ..))).trans (hand (groupTrouble_tells ..).air)

/-- CHAIN n SILENT is withdrawn and not raised again (R25, R38). -/
theorem arrival_notSilent (s : State) (n : ChainNo) (v : Reported) :
    (s.arrival n v).alarms.isPending (srcChainSilent n) = false := by
  obtain ⟨u, hf, hn, -, e⟩ := arrival_eq s n v
  have silent : ∀ m : ChainNo, srcChainSilent m ∉ srcChainFault m :: handSources ∧ srcChainSilent m ∉ handSources
      ∧ srcAlmostFull ≠ srcChainSilent m := by decide
  obtain ⟨h1, h2, h3⟩ := silent n
  have before : u.alarms.isPending (srcChainSilent n) = false := by
    have withdrawn : (arrived s n v).alarms.isPending (srcChainSilent n) = false := withdraw_notPending ..
    by_cases h : Faults s n v
    · rw [hf h]
      exact (enterFaulted_tells ..).handled.notPending h1 h3 withdrawn
    · rw [hn h]
      exact withdrawn
  rw [e]
  exact ((handUpdate_tells ..).trans (stateChange_tells ..)).handled.notPending h2 h3 before

/-- An entry into FAULTED fails the FIRED cues of the chain (R30, R101). -/
theorem arrival_fails {s : State} (h : Calm s) {n : ChainNo} {v : Reported} (hf : Faults s n v) {i : CueId} {c : Cue}
    (hc : s.liveCue i = some c) (hst : c.runtime.state = .fired) (hn : c.fields.chain = n) :
    (s.arrival n v).fateOf i = some (.failed, .chainFaulted) := by
  obtain ⟨u, hu, -, -, e⟩ := arrival_eq s n v
  have calm : Calm (arrived s n v) := (Spared.of_cues (arrived_cues s n v)).calm h
  have live : (arrived s n v).liveCue i = some c := (liveCue_congr (arrived_cues s n v) i).trans hc
  subst hn
  have raised (d : Detail) : Spared (arrived s c.fields.chain v)
      ((arrived s c.fields.chain v).raise (srcChainFault c.fields.chain) d) :=
    .of_cues (raise_cues ..)
  have failed (d : Detail) : (((arrived s c.fields.chain v).raise (srcChainFault c.fields.chain) d).failFired c.fields.chain
      .chainFaulted).fateOf i = some (.failed, .chainFaulted) :=
    failFired_fate ((raised d).calm calm) ((liveCue_congr (raise_cues ..) i).trans live) hst _
  have troubled (w : State) : Spared w (w.groupTrouble c.fields.chain .faulted) := .of_cues (groupTrouble_cues ..)
  rw [e, hu hf]
  refine Spared.fate ((handUpdate_spared ..).trans (stateChange_spared ..)) ?_
    ((troubled _).fate ((carryOut_spared ..).calm ((raised _).calm calm)) (failed _))
  exact (troubled _).calm ((carryOut_spared ..).calm ((raised _).calm calm))

/-- Without an entry into FAULTED the report judges the FIRED cues of the chain (R92, R97). -/
theorem arrival_judges {s : State} (h : Calm s) {n : ChainNo} {v : Reported} (hf : ¬ Faults s n v) {i : CueId} {c : Cue}
    (hc : s.liveCue i = some c) (hst : c.runtime.state = .fired) (hn : c.fields.chain = n) :
    (s.arrival n v).liveCue i = some (reportedCue v (s.chain n).state (enteredState s n v) s.fieldCount c) := by
  obtain ⟨u, -, hu, hcount, e⟩ := arrival_eq s n v
  have calm : Calm (arrived s n v) := (Spared.of_cues (arrived_cues s n v)).calm h
  have live : (arrived s n v).liveCue i = some c := (liveCue_congr (arrived_cues s n v) i).trans hc
  have judged := handed_judges calm s.fieldCount live hst hn (s.chain n).state (enteredState s n v)
  rw [arrived_reported] at judged
  rw [e, hcount, hu hf]
  exact judged

/-! ### The telegram (R6, R22, R24) -/

theorem exec_chainReport {s : State} (hw : s.inWindow = true) {dest : Station} (hd : dest = 0 ∨ dest = 15) {n : ChainNo}
    (hr : s.round.reported.contains (chainAddress n) = false) (payload : List Byte) :
    exec (.chainReport (chainAddress n) dest payload) s
      = .next ((s.listening.noteReported (chainAddress n)).chainArrival n payload) := by
  obtain ⟨hrec, hopen⟩ : s.receiving = true ∧ s.windowOpen = true := by simpa [State.inWindow] using hw
  refine congrArg Host.Outcome.next ((received_inWindow hrec _).trans ?_)
  rw [receive_other (s := s.listening) hopen (chainAddress_ne_zero n), sortOther_chain (addressee_chainAddress n),
    if_pos (by simp [(toController_iff dest).mpr hd])]
  exact if_neg (Bool.eq_false_iff.mp hr)

theorem motorOf_eq_none : ∀ b : BitVec 3, motorOf b = none ↔ 4 < b.toNat := by decide

theorem motorOf_spooling : ∀ b : BitVec 3, motorOf b = some .spooling ↔ b.toNat = 3 := by decide

theorem lampOf_eq_none : ∀ b : BitVec 2, lampOf b = none ↔ b.toNat = 3 := by decide

theorem validChainReport_length {p : List Byte} (h : p.length ≠ 4) (c : Cadence) : validChainReport c p = none := by
  have : decodeChainReport p = none := by
    unfold decodeChainReport
    split
    · simp at h
    · rfl
  simp only [validChainReport, this]

/-- A code without a meaning, a direction without one while spooling, and a phase that its frame has not (R24, R205). -/
theorem validChainReport_malformed {c : Cadence} {lo hi b2 b3 : Byte}
    (h : 4 < (b2.extractLsb' 2 3).toNat ∨ (b3.extractLsb' 0 2).toNat = 3
      ∨ ((b2.extractLsb' 2 3).toNat = 3 ∧ 2 ≤ (b2.extractLsb' 5 2).toNat)
      ∨ fieldsOf c (word lo hi).toNat ≤ (b2.extractLsb' 0 2).toNat) : validChainReport c [lo, hi, b2, b3] = none := by
  cases hm : motorOf (b2.extractLsb' 2 3) with
  | none => simp [validChainReport, decodeChainReport, hm]
  | some motor =>
    cases hl : lampOf (b3.extractLsb' 0 2) with
    | none => simp [validChainReport, decodeChainReport, hm, hl]
    | some lamp =>
      by_cases hd : (motor == .spooling && decide ((b2.extractLsb' 5 2).toNat ≥ 2)) = true
      · simp only [validChainReport, decodeChainReport, hm, hl]
        rw [if_pos hd]
      · have phase : ¬ (b2.extractLsb' 0 2).toNat < fieldsOf c (word lo hi).toNat := by
          rcases h with h | h | ⟨h3, h2⟩ | h
          · rw [(motorOf_eq_none _).mpr h] at hm; cases hm
          · rw [(lampOf_eq_none _).mpr h] at hl; cases hl
          · obtain rfl : motor = .spooling := Option.some.inj (hm.symm.trans ((motorOf_spooling _).mpr h3))
            exact absurd (by simpa using h2) hd
          · exact Nat.not_lt.mpr h
        simp only [validChainReport, decodeChainReport, hm, hl]
        rw [if_neg hd]
        exact if_neg phase

/-! ### What the report finds, row by row -/

section
variable {v : Reported} {left entered : ChainState} {f : Field} {c : Cue}

theorem reportedCue_unjudged (hk : c.fields.kind ≠ .start) (hj : ¬ c.runtime.inEffect f) :
    reportedCue v left entered f c = c := by
  rw [reportedCue, if_neg hk, if_neg (mt (judges_iff ..).mp hj)]
  rfl

theorem reportedCue_judged (hk : c.fields.kind ≠ .start) (hj : c.runtime.inEffect f) :
    reportedCue v left entered f c = (arrivalFinding v c.fields).applied c := by
  rw [reportedCue, if_neg hk, if_pos ((judges_iff ..).mpr hj)]

theorem reportedCue_same (hk : c.fields.kind = .start) (h : left = entered) : reportedCue v left entered f c = c := by
  rw [reportedCue, if_pos hk, if_pos h]

theorem reportedCue_start (hk : c.fields.kind = .start) (h : left ≠ entered) :
    reportedCue v left entered f c = (entryFinding entered (judges c.runtime.effectField f)).applied c := by
  rw [reportedCue, if_pos hk, if_neg h]

theorem reportedCue_changeover (hk : c.fields.kind = .changeover) : reportedCue v left entered f c = c := by
  have other : c.fields.kind ≠ .start := by rw [hk]; nofun
  have stays : arrivalFinding v c.fields = .stays := by simp only [arrivalFinding, hk]
  rw [reportedCue, if_neg other, stays, ite_self]
  rfl

/-- The states in which a START that has been judged is contradicted (R97). -/
def Elsewhere (x : ChainState) : Prop := x = .idle ∨ x = .cued ∨ x = .spooling ∨ x = .runDown

theorem entryFinding_elsewhere (h : Elsewhere entered) : entryFinding entered true = .contradicted := by
  rcases h with rfl | rfl | rfl | rfl <;> rfl

theorem entryFinding_stays (h : entered ≠ .atSpeed) {b : Bool} (hb : ¬ (Elsewhere entered ∧ b = true)) :
    entryFinding entered b = .stays := by
  cases entered
  case atSpeed => exact absurd rfl h
  case absent | runUp | faulted => rfl
  all_goals
    have : b = false := Bool.eq_false_iff.mpr fun e => hb ⟨by simp [Elsewhere], e⟩
    rw [this]
    rfl

end

/-- Settles O23: the record by its arrival, the FIRED cues by what the report finds of them; a malformed report is none. -/
theorem validReportUpdatesItsRecord : Obligations.ValidReportUpdatesItsRecord := by
  refine ⟨fun s n dest p v hw hd hr he hv => ?valid, fun s n dest p hw hd hr h => ?malformed⟩
  case malformed =>
    rw [exec_chainReport hw hd hr]
    refine congrArg Host.Outcome.next ?_
    rcases h with h | h
    · have none : validChainReport (s.chain n).config.cadence p = none := by
        rcases h with h | ⟨lo, hi, b2, b3, rfl, h⟩
        · exact validChainReport_length h _
        · exact validChainReport_malformed h
      have none' : validChainReport ((s.listening.noteReported (chainAddress n)).chain n).config.cadence p = Option.none := none
      rw [State.chainArrival, none', ite_self]
      rfl
    · exact if_neg (Bool.eq_false_iff.mp h)
  case valid =>
    have arrives : (s.listening.noteReported (chainAddress n)).chainArrival n p
        = (s.listening.noteReported (chainAddress n)).arrival n v := by
      have hv' : validChainReport ((s.listening.noteReported (chainAddress n)).chain n).config.cadence p = some v := hv
      rw [State.chainArrival, hv']
      exact if_pos he
    obtain ⟨tracking, tracked⟩ := arrival_spec (s.listening.noteReported (chainAddress n)) n v
    refine ⟨_, (exec_chainReport hw hd hr p).trans (congrArg _ arrives), ?_, fun m hm => ?_, arrival_updateField ..,
      arrival_notSilent .., (TrackingOnly.setChain ..).trans tracking, fun hp hb i c hc hf hn => ?judged⟩
    · rw [tracked n, State.chain_setChain_self]
      rfl
    · rw [tracked m, State.chain_setChain_ne _ _ _ _ hm]
      rfl
    case judged =>
      have calm : Calm (s.listening.noteReported (chainAddress n)) := .of_bankSound hp hb
      have live (h : ¬ Faults (s.listening.noteReported (chainAddress n)) n v) := arrival_judges calm h hc hf hn
      intro left entered judged faults done stays contradicted elsewhere
      have state {x : Cue} {st : CueState} (h : ¬ faults)
          (hx : reportedCue v left entered s.round.fieldCount c = x) (hst : x.runtime.state = st) :
          (((s.listening.noteReported (chainAddress n)).arrival n v).liveCue i).map (fun d => d.runtime.state) = some st := by
        rw [live h, ← hst, ← hx]
        rfl
      have contra (h : ¬ faults) (hx : reportedCue v left entered s.round.fieldCount c = Finding.contradicted.applied c) :
          contradicted := (fateOf_eq (live h)).trans (congrArg (fun d : Cue => some (d.runtime.state, d.runtime.cause)) hx)
      have finds {x : Finding} (hk : c.fields.kind ≠ .start) (hj : judged) (hx : arrivalFinding v c.fields = x) :
          reportedCue v left entered s.round.fieldCount c = x.applied c := (reportedCue_judged hk hj).trans (by rw [hx])
      have not_start {k : CueKind} (hk : c.fields.kind = k) (hne : k ≠ .start) : c.fields.kind ≠ .start := hk ▸ hne
      refine ⟨fun h => arrival_fails calm h hc hf hn, fun h hj hk => state h (reportedCue_unjudged hk hj) hf,
        fun h hj hk hm hv => state h (finds (not_start hk nofun) hj (x := .done) ?_) rfl,
        fun h hj hk hm => state h (finds (not_start hk nofun) hj (x := .stays) ?_) hf,
        fun h hj hk hm => contra h (finds (not_start hk nofun) hj ?_), fun h hj hk => ?stop, fun h hj hk => ?shutter,
        fun h hk hne he => state h (x := Finding.done.applied c) ((reportedCue_start hk hne).trans ?_) rfl,
        fun h hk hne he hj => contra h ?_, fun h hk hx => ?startStays, fun h hk => state h (reportedCue_changeover hk) hf⟩
      · simp only [arrivalFinding, hk, hm, if_pos hv]
      · simp only [arrivalFinding, hk, hm]
      · rcases hm with ⟨hm, hv⟩ | hm | hm | hm
        · simp only [arrivalFinding, hk, hm, if_neg hv]
        all_goals simp only [arrivalFinding, hk, hm]
      case stop =>
        by_cases hm : v.motor = .off
        · rw [if_pos hm]
          exact state h (finds (not_start hk nofun) hj (x := .done) (by simp only [arrivalFinding, hk, if_pos hm])) rfl
        · rw [if_neg hm]
          exact state h (finds (not_start hk nofun) hj (x := .stays) (by simp only [arrivalFinding, hk, if_neg hm])) hf
      case shutter =>
        have shows : v.dowser = (c.fields.sense != some .closing) ↔ (v.dowser = true ↔ c.fields.sense ≠ some .closing) := by
          rw [Bool.eq_iff_iff, bne_iff_ne]
        by_cases hm : v.dowser = true ↔ c.fields.sense ≠ some .closing
        · rw [if_pos hm]
          exact state h (finds (not_start hk nofun) hj (x := .done)
            (by simp only [arrivalFinding, hk]; exact if_pos (shows.mpr hm))) rfl
        · rw [if_neg hm]
          exact state h (finds (not_start hk nofun) hj (x := .stays)
            (by simp only [arrivalFinding, hk]; exact if_neg (mt shows.mp hm))) hf
      · rw [he]
        rfl
      · refine (reportedCue_start hk hne).trans ?_
        rw [(judges_iff ..).mpr hj, entryFinding_elsewhere he]
      case startStays =>
        by_cases he : left = entered
        · exact state h (reportedCue_same hk he) hf
        · obtain ⟨hne, hno⟩ := hx.resolve_left he
          refine state h (x := Finding.stays.applied c) ((reportedCue_start hk he).trans ?_) hf
          rw [entryFinding_stays hne fun hb => hno ⟨hb.1, (judges_iff ..).mp hb.2⟩]

end Sys2Proof.Proofs.Reports
end

section
/-! A MUX REPORT received: what it makes of its group and of the changeover in flight (R127, R128, R132, R133). -/

namespace Sys2Proof.Proofs.MuxReports

open Sys2Proof Sys2Proof.Machine Sys2Proof.Proofs.Tasks Sys2Proof.Proofs.Fates Sys2Proof.Proofs.WholeBank
  Sys2Proof.Proofs.Abandoning Sys2Proof.Proofs.CloseCues Sys2Proof.Proofs.Groups Sys2Proof.Proofs.Judging
  Sys2Proof.Proofs.Handling Sys2Proof.Proofs.Telling Sys2Proof.Proofs.Loop Sys2Proof.Proofs.Basics

/-! ### A changeover that is over -/

theorem acts_of_actsOn {s : State} {t : Task} {c : Cue} (h : ActsOn s t c) : Acts c t := by
  cases hn : named t with
  | none =>
    simp only [ActsOn, Acts, hn] at h ⊢
    exact h.2
  | some p =>
    simp only [ActsOn, Acts, hn] at h ⊢
    exact ⟨(liveCue_mem h.1).2.symm, h.2⟩

/-- No group has the changeover of a cue in flight. -/
def Cleared (i : CueId) (s : State) : Prop := ∀ g, (s.group g).inFlight.map InFlight.cue ≠ some i

/-- The cue of a changeover has left FIRED for good, and no group has it in flight. -/
structure Landed (d : Cue) (s : State) : Prop where
  calm : Calm s
  live : s.liveCue d.fields.id = some d
  ended : Ended d
  cleared : Cleared d.fields.id s

/-- Nothing brings the changeover of an ended cue up again: a task sets in flight the cue that it acts on only (R100, R130). -/
theorem Landed.runTask {d : Cue} {s : State} (h : Landed d s) (t : Task) : Landed d (s.runTask t).state where
  calm := runTask_calm h.calm t
  live := by
    rcases runTask_liveCue h.calm h.live t with k | ⟨k, -⟩
    · exact k
    · exact absurd k (not_acts_ended h.ended t)
  ended := h.ended
  cleared g := by
    rcases runTask_writes s t with e | ⟨c, hc, ⟨-, -, hb, -⟩ | ⟨-, hs, -⟩⟩
    · rw [e]; exact h.cleared g
    · rcases hb.flight g with e | e | ⟨x, e, hx⟩
      · rw [e]; exact h.cleared g
      · rw [e]; nofun
      · rw [e, Option.map_some, hx]
        intro same
        have hid : c.fields.id = d.fields.id := Option.some.inj same
        have live := liveCue_of_mem h.calm.2 (ActsOn.live hc)
        rw [hid, h.live] at live
        obtain rfl := Option.some.inj live
        exact not_acts_ended h.ended t (acts_of_actsOn hc)
    · exact absurd (h.calm.1.symm.trans hs) nofun

theorem Landed.carryOut {d : Cue} {s : State} (h : Landed d s) (tasks : List Task) : Landed d (s.carryOut tasks) :=
  carryOut_induct (Landed d) (fun _ t hu => hu.runTask t) s tasks h

/-- The air holder and its tenure are no matter of a changeover in flight. -/
theorem deriveHolder_inFlight (s : State) (g k : GroupId) : ((s.deriveHolder g).group k).inFlight = (s.group k).inFlight := by
  obtain ⟨a, h⟩ := deriveHolder_spec s g
  rw [h.group]
  cases g <;> cases k <;> rfl

theorem Landed.deriveHolder {d : Cue} {s : State} (h : Landed d s) (g : GroupId) : Landed d (s.deriveHolder g) where
  calm := (Spared.of_cues (deriveHolder_cues s g)).calm h.calm
  live := (liveCue_congr (deriveHolder_cues s g) _).trans h.live
  ended := h.ended
  cleared k := by rw [deriveHolder_inFlight]; exact h.cleared k

theorem record_endFlight_cleared (r : GroupRecord) (i : CueId) : (r.endFlight i).inFlight.map InFlight.cue ≠ some i := by
  unfold GroupRecord.endFlight
  cases h : r.inFlight with
  | none => simp [h]
  | some x =>
    dsimp only
    split
    · nofun
    · next hne => rw [h]; exact fun e => hne (Option.some.inj e)

/-- A FIRED CHANGEOVER that leaves FIRED is cleared in both groups (R131). -/
theorem endFlight_cleared {c : Cue} (hk : c.fields.kind = .changeover) (hf : c.runtime.state = .fired) (s : State) :
    Cleared c.fields.id (s.endFlight c) := by
  intro g
  have both : (c.fields.kind == .changeover && c.runtime.state == .fired) = true := by simp [hk, hf]
  rw [State.endFlight, if_pos both]
  cases g
  · exact record_endFlight_cleared s.groupA _
  · exact record_endFlight_cleared s.groupB _

theorem Cleared.of_groups {i : CueId} {s t : State} (h : Cleared i s) (hg : ∀ g, t.group g = s.group g) : Cleared i t :=
  fun g => by rw [hg]; exact h g

/-- What follows a change of state leaves the groups as they are (R77). -/
theorem settleChange_group (s : State) (c : Cue) (r : CueRuntime) (g : GroupId) :
    (s.settleChange c r).state.group g = s.group g := by
  have after : (afterChange s c r).group g = s.group g := by
    unfold afterChange
    split
    · cases g <;> rfl
    · rfl
  rw [settleChange_eq]
  split
  · refine Eq.trans ?_ after
    cases g <;> rfl
  · exact after

/-- A changeover that fails is over (R131). -/
theorem failCue_landed {s : State} (h : Calm s) {c : Cue} (hc : s.liveCue c.fields.id = some c) (hk : c.fields.kind = .changeover)
    (hf : c.runtime.state = .fired) (cause : FailureCause) :
    Landed { c with runtime := { c.runtime with state := .failed, cause := cause, effectField := none, expected := none } }
      (s.runTask (.fail c.fields.id cause)).state where
  calm := runTask_calm h _
  live := by rw [runTask_fail hc hf]; exact failCue_liveCue h.1 hc ..
  ended := .inr (.inl rfl)
  cleared := by
    rw [runTask_fail hc hf]
    have ended := endFlight_cleared hk hf (s.setRuntime c.fields.id
      { c.runtime with state := .failed, cause := cause, effectField := none, expected := none })
    exact ended.of_groups fun g => (settleChange_group ..).trans ((raise_alarmsOnly ..).group g)

/-- A changeover that is confirmed is over (R131, R132). -/
theorem confirmCue_landed {s : State} (h : Calm s) {c : Cue} (hc : s.liveCue c.fields.id = some c)
    (hk : c.fields.kind = .changeover) (hf : c.runtime.state = .fired) :
    Landed { c with runtime := { c.runtime with state := .done, effectField := none, expected := none } }
      (s.runTask (.confirm c.fields.id)).state := by
  have runs : s.runTask (.confirm c.fields.id) = s.confirmCue c := onCue_acts hc (by simp [hf]) _
  refine ⟨runTask_calm h _, ?_, .inl rfl, ?_⟩
  · rw [runs]; exact confirmCue_liveCue h.1 hc
  · rw [runs]
    exact (endFlight_cleared hk hf _).of_groups fun g => settleChange_group ..

theorem Landed.single {d : Cue} {s : State} (h : Calm s) {t : Task} (hd : Landed d (s.runTask t).state) :
    Landed d (s.carryOut [t]) := by
  rw [carryOut_single h]
  exact hd.carryOut _

/-- A failing changeover raises CHANGEOVER FAILED (R100). -/
theorem fail_stands {s : State} (h : Calm s) {c : Cue} (hc : s.liveCue c.fields.id = some c) (hk : c.fields.kind = .changeover)
    (hf : c.runtime.state = .fired) (cause : FailureCause) :
    (s.carryOut [.fail c.fields.id cause]).alarmStands srcChangeoverFailed = true := by
  have source : (if c.fields.kind == .changeover then srcChangeoverFailed else srcCueFailed) = srcChangeoverFailed := by simp [hk]
  rw [carryOut_single h]
  refine (carryOut_handled ..).stands (by simp) (by decide) ?_
  rw [runTask_fail hc hf]
  refine (settleChange_handled ..).stands (by simp) (by decide) ?_
  rw [source]
  exact raise_stands ..

/-! ### The judging of a report (R132, R133) -/

section
variable {s : State} {g : GroupId}

theorem judgeMuxFault_clear (h : (s.group g).fault = false) (b : Bool) : s.judgeMuxFault g b = s := by
  simp [State.judgeMuxFault, h]

theorem judgeMuxFault_flight (h : (s.group g).fault = true) {x : InFlight} (hx : (s.group g).inFlight = some x) (b : Bool) :
    s.judgeMuxFault g b = s.carryOut [.fail x.cue .muxFault] := by
  simp [State.judgeMuxFault, h, hx]

theorem judgeMuxFault_again (hx : (s.group g).inFlight = none) : s.judgeMuxFault g true = s := by
  simp [State.judgeMuxFault, hx]

theorem judgeMuxFault_rise (h : (s.group g).fault = true) (hx : (s.group g).inFlight = none) : s.judgeMuxFault g false
    = s.raise srcChangeoverFailed { group := some g, cause := .muxFault, field := s.fieldCount } := by
  simp [State.judgeMuxFault, h, hx]

theorem judgeFlight_none (h : (s.group g).inFlight = none) : s.judgeFlight g = s := by
  simp only [State.judgeFlight, h]

/-- The judging of another cue's changeover leaves one that is over as it is. -/
theorem Landed.judgeFlight {d : Cue} (h : Landed d s) : Landed d (s.judgeFlight g) := by
  unfold State.judgeFlight
  split
  · exact h
  · split
    · split
      · exact h.carryOut _
      · split
        · exact h
        · exact h.carryOut _
    · exact h

theorem judgeFlight_handled (s : State) (g : GroupId) : CueHandled s (s.judgeFlight g) := by
  unfold State.judgeFlight
  split
  · exact .refl ..
  · split
    · split
      · exact carryOut_handled ..
      · split
        · exact .refl ..
        · exact carryOut_handled ..
    · exact .refl ..

variable {x : InFlight} {c : Cue}

theorem flightJudged_iff (hc : s.liveCue x.cue = some c) (hf : c.runtime.state = .fired) :
    s.flightJudged x = true ↔ c.runtime.inEffect s.fieldCount := by
  simp [State.flightJudged, hc, hf, judges_iff]

theorem judgeFlight_early (hx : (s.group g).inFlight = some x) (h : s.flightJudged x = false) : s.judgeFlight g = s := by
  simp [State.judgeFlight, hx, h]

theorem judgeFlight_confirms (hx : (s.group g).inFlight = some x) (h : s.flightJudged x = true)
    (hs : (s.group g).shown = some x.incoming) : s.judgeFlight g = s.carryOut [.confirm x.cue] := by
  simp [State.judgeFlight, hx, h, hs]

theorem judgeFlight_waits (hx : (s.group g).inFlight = some x) (h : s.flightJudged x = true)
    (hs : (s.group g).shown ≠ some x.incoming) (ho : (s.group g).shown = x.outgoing) : s.judgeFlight g = s := by
  simp only [State.judgeFlight, hx, h, if_true]
  rw [if_neg hs, if_pos ho]

theorem judgeFlight_contradicts (hx : (s.group g).inFlight = some x) (h : s.flightJudged x = true)
    (hs : (s.group g).shown ≠ some x.incoming) (ho : (s.group g).shown ≠ x.outgoing) :
    s.judgeFlight g = s.carryOut [.fail x.cue .contradicted] := by
  simp only [State.judgeFlight, hx, h, if_true]
  rw [if_neg hs, if_neg ho]

end

/-! ### The telegram (R6, R127) -/

/-- What a MUX REPORT makes of a state that has its values stored. -/
def judgedReport (s : State) (g : GroupId) (previous : Bool) : State := ((s.judgeMuxFault g previous).judgeFlight g).deriveHolder g

/-- The state with the values of a MUX REPORT stored (R127). -/
def muxStored (s : State) (g : GroupId) (input : Fin 5) (fault : Bool) : State :=
  (s.listening.noteReported (groupAddress g)).setGroup g { s.group g with selected := some input, fault := fault }

theorem exec_muxReport {s : State} (hw : s.inWindow = true) {dest : Station} (hd : dest = 0 ∨ dest = 15) {g : GroupId}
    (hr : s.round.reported.contains (groupAddress g) = false) (payload : List Byte) :
    exec (.muxReport (groupAddress g) dest payload) s
      = .next ((s.listening.noteReported (groupAddress g)).muxArrival g payload) := by
  obtain ⟨hrec, hopen⟩ : s.receiving = true ∧ s.windowOpen = true := by simpa [State.inWindow] using hw
  refine congrArg Host.Outcome.next ((received_inWindow hrec _).trans ?_)
  rw [receive_other (s := s.listening) hopen (groupAddress_ne_zero g), sortOther_group (addressee_groupAddress g),
    if_pos (by simp [(toController_iff dest).mpr hd])]
  exact if_neg (Bool.eq_false_iff.mp hr)

theorem muxArrival_eq {s : State} {g : GroupId} {payload : List Byte} {input : Fin 5} {fault : Bool}
    (h : decodeMuxReport payload = some (input, fault)) :
    (s.listening.noteReported (groupAddress g)).muxArrival g payload
      = judgedReport (muxStored s g input fault) g (s.group g).fault := by
  have same : (s.listening.noteReported (groupAddress g)).group g = s.group g := by cases g <;> rfl
  simp only [State.muxArrival, h]
  rw [same]
  rfl

theorem decodeMuxReport_malformed {payload : List Byte}
    (h : payload.length ≠ 2 ∨ ∃ input fault, payload = [input, fault] ∧ (4 < input.toNat ∨ 1 < fault.toNat)) :
    decodeMuxReport payload = none := by
  rcases h with h | ⟨input, fault, rfl, h⟩
  · unfold decodeMuxReport
    split
    · simp at h
    · rfl
  · unfold decodeMuxReport
    dsimp only
    split
    · rw [(yesNo_eq_none fault).mpr (by omega)]; rfl
    · rfl

theorem judgedReport_handsOn (s : State) (g : GroupId) (b : Bool) : HandsOn s (judgedReport s g b) :=
  ((judgeMuxFault_handsOn ..).trans (judgeFlight_handsOn ..)).trans (deriveHolder_handsOn ..)

/-- The air holder is derived last (R128). -/
theorem judgedReport_holder (s : State) (g : GroupId) (b : Bool) : ((judgedReport s g b).group g).holder
    = (((judgedReport s g b).group g).shown).filter (fun n => ((judgedReport s g b).chain n).state != .absent) := by
  unfold judgedReport
  generalize (s.judgeMuxFault g b).judgeFlight g = u
  obtain ⟨a, h⟩ := deriveHolder_spec u g
  have chains (n : ChainNo) : (u.deriveHolder g).chain n = u.chain n := (h.chain n).trans (by cases g <;> rfl)
  simp only [chains, h.group, State.group_setGroup_self]
  rfl

section
variable {s : State} {g : GroupId} (hx : (s.group g).inFlight = none)
include hx

/-- With none in flight the rise of the fault flag raises CHANGEOVER FAILED (R133). -/
theorem judgedReport_rise (hf : (s.group g).fault = true) : (judgedReport s g false).alarmStands srcChangeoverFailed = true := by
  have kept : ((s.judgeMuxFault g false).group g).inFlight = none := by
    rw [judgeMuxFault_rise hf hx, (raise_alarmsOnly ..).group, hx]
  unfold judgedReport
  rw [judgeFlight_none kept, judgeMuxFault_rise hf hx]
  exact (deriveHolder_tells ..).handled.stands (by simp) (by decide) (raise_stands ..)

/-- With none in flight no other report raises it (R133). -/
theorem judgedReport_quiet {b : Bool} (hf : (s.group g).fault = false ∨ b = true)
    (hp : s.alarms.isPending srcChangeoverFailed = false) :
    (judgedReport s g b).alarms.isPending srcChangeoverFailed = false := by
  have same : s.judgeMuxFault g b = s := by
    rcases hf with hf | rfl
    · exact judgeMuxFault_clear hf b
    · exact judgeMuxFault_again hx
  unfold judgedReport
  rw [same, judgeFlight_none hx]
  exact (deriveHolder_tells ..).handled.notPending (by decide) (by decide) hp

end

section
variable {s : State} (h : Calm s) {g : GroupId} {x : InFlight} {c : Cue} (hx : (s.group g).inFlight = some x)
  (hc : s.liveCue x.cue = some c) (hk : c.fields.kind = .changeover) (hf : c.runtime.state = .fired)
include h hx hc hk hf

/-- A fault flag fails the changeover in flight (R133). -/
theorem judgedReport_fault (hfault : (s.group g).fault = true) (b : Bool) :
    (judgedReport s g b).fateOf x.cue = some (.failed, .muxFault) ∧ Cleared x.cue (judgedReport s g b)
      ∧ (judgedReport s g b).alarmStands srcChangeoverFailed = true := by
  obtain ⟨-, hid⟩ := liveCue_mem hc
  rw [← hid] at hc
  have flight := judgeMuxFault_flight hfault hx b
  rw [← hid] at flight ⊢
  have landed := ((failCue_landed h hc hk hf .muxFault).single h).judgeFlight (g := g) |>.deriveHolder g
  rw [← flight] at landed
  refine ⟨fateOf_eq landed.live, landed.cleared, ?_⟩
  refine (deriveHolder_tells ..).handled.stands (by simp) (by decide) ((judgeFlight_handled ..).stands (by simp) (by decide) ?_)
  rw [flight]
  exact fail_stands h hc hk hf _

variable (hfault : (s.group g).fault = false) (b : Bool)
include hfault

omit h hk hf in
/-- A report that does not judge the changeover leaves it and its cue (R132). -/
theorem judgedReport_stays (e : s.judgeFlight g = s) :
    (judgedReport s g b).liveCue x.cue = some c ∧ ((judgedReport s g b).group g).inFlight = some x := by
  unfold judgedReport
  rw [judgeMuxFault_clear hfault, e, deriveHolder_inFlight]
  exact ⟨(liveCue_congr (deriveHolder_cues s g) _).trans hc, hx⟩

/-- A report that shows the incoming chain confirms (R132). -/
theorem judgedReport_confirms (hj : s.flightJudged x = true) (hs : (s.group g).shown = some x.incoming) :
    ((judgedReport s g b).liveCue x.cue).map (fun d => d.runtime.state) = some .done ∧ Cleared x.cue (judgedReport s g b) := by
  obtain ⟨-, hid⟩ := liveCue_mem hc
  have confirms := judgeFlight_confirms hx hj hs
  rw [← hid] at hc confirms ⊢
  have landed := ((confirmCue_landed h hc hk hf).single h).deriveHolder g
  rw [← confirms] at landed
  unfold judgedReport
  rw [judgeMuxFault_clear hfault]
  exact ⟨congrArg (Option.map fun d : Cue => d.runtime.state) landed.live, landed.cleared⟩

/-- A report that shows neither chain of the changeover contradicts it (R132). -/
theorem judgedReport_contradicts (hj : s.flightJudged x = true) (hs : (s.group g).shown ≠ some x.incoming)
    (ho : (s.group g).shown ≠ x.outgoing) :
    (judgedReport s g b).fateOf x.cue = some (.failed, .contradicted) ∧ Cleared x.cue (judgedReport s g b)
      ∧ (judgedReport s g b).alarmStands srcChangeoverFailed = true := by
  obtain ⟨-, hid⟩ := liveCue_mem hc
  have fails := judgeFlight_contradicts hx hj hs ho
  rw [← hid] at hc fails ⊢
  have landed := ((failCue_landed h hc hk hf .contradicted).single h).deriveHolder g
  rw [← fails] at landed
  unfold judgedReport
  rw [judgeMuxFault_clear hfault]
  refine ⟨fateOf_eq landed.live, landed.cleared, (deriveHolder_tells ..).handled.stands (by simp) (by decide) ?_⟩
  rw [fails]
  exact fail_stands h hc hk hf _

end

/-- Settles O40: the values are stored, the fault flag and then the changeover in flight are judged, the holder is derived last. -/
theorem muxReportMakesTheAirHolder : Obligations.MuxReportMakesTheAirHolder := by
  refine ⟨fun s g dest payload input fault hw hd hr hdec => ?valid, fun s g dest payload hw hd hr h => ?malformed⟩
  case malformed =>
    rw [exec_muxReport hw hd hr]
    simp only [State.muxArrival, decodeMuxReport_malformed h]
    rfl
  case valid =>
    let v := muxStored s g input fault
    have group : v.group g = { s.group g with selected := some input, fault := fault } := State.group_setGroup_self ..
    have cues : v.cues = s.cues := by cases g <;> rfl
    have alarms : v.alarms = s.alarms := by cases g <;> rfl
    have field : v.fieldCount = s.round.fieldCount := by cases g <;> rfl
    have handed := judgedReport_handsOn v g (s.group g).fault
    have shown : ((judgedReport v g (s.group g).fault).group g).shown = (v.group g).shown := handed.1.shown g
    have noFlight : (s.group g).inFlight = none → (v.group g).inFlight = none := fun e => by rw [group]; exact e
    have fault' : (v.group g).fault = fault := by rw [group]
    refine ⟨judgedReport v g (s.group g).fault, ?_, handed.1, judgedReport_holder .., fun n => ?_, ?_, fun hn ht hp => ?_,
      fun hn ht hp => ?_, fun x c hx hc hk hf hp hb => ?flight⟩
    · rw [exec_muxReport hw hd hr, muxArrival_eq hdec]
    · refine (handed.2 n).trans ?_
      cases g <;> rfl
    · rw [shown, group]
      rfl
    · rw [hp]
      exact judgedReport_rise (noFlight hn) (fault'.trans ht)
    · exact judgedReport_quiet (noFlight hn) (by rw [fault']; exact ht) (by rw [alarms]; exact hp)
    case flight =>
      have calm : Calm v := .of_bankSound (by rw [cues]; exact hp) (by rw [cues]; exact hb)
      have flight : (v.group g).inFlight = some x := by rw [group]; exact hx
      have live : v.liveCue x.cue = some c := (liveCue_congr cues _).trans hc
      have judged : v.flightJudged x = true ↔ c.runtime.inEffect s.round.fieldCount := by
        rw [flightJudged_iff live hf, field]
      intro judging seen cleared stays
      have seenAs : seen = (v.group g).shown := shown
      rw [seenAs]
      refine ⟨fun ht => ?_, fun ht hj => ?_, fun ht hj hs => ?_, fun ht hj hs ho => ?_, fun ht hj hs ho => ?_⟩
      · obtain ⟨a, b, e⟩ := judgedReport_fault calm flight live hk hf (fault'.trans ht) (s.group g).fault
        exact ⟨a, b g, e⟩
      · exact judgedReport_stays flight live (fault'.trans ht) _
          (judgeFlight_early flight (Bool.eq_false_iff.mpr (mt judged.mp hj)))
      · obtain ⟨a, b⟩ := judgedReport_confirms calm flight live hk hf (fault'.trans ht) (s.group g).fault (judged.mpr hj) hs
        exact ⟨a, b g⟩
      · exact judgedReport_stays flight live (fault'.trans ht) _ (judgeFlight_waits flight (judged.mpr hj) hs ho)
      · obtain ⟨a, b, e⟩ :=
          judgedReport_contradicts calm flight live hk hf (fault'.trans ht) (s.group g).fault (judged.mpr hj) hs ho
        exact ⟨a, b g, e⟩

end Sys2Proof.Proofs.MuxReports
end

section
/-! A returned action: ACTION UNDELIVERED, the failure of its FIRED cue, and the swap that the failure may take (R16, R69, R70,
R102). -/

namespace Sys2Proof.Proofs.Undelivered

open Sys2Proof Sys2Proof.Machine Sys2Proof.Proofs.Tasks Sys2Proof.Proofs.Fates Sys2Proof.Proofs.WholeBank
  Sys2Proof.Proofs.Abandoning Sys2Proof.Proofs.Groups Sys2Proof.Proofs.Handling Sys2Proof.Proofs.Loop

/-! ### The placed list (R16) -/

/-- An unmatched entry of the placed list agrees with a telegram. -/
def Agrees (t : Telegram) (p : Placed) : Prop :=
  p.matched = false ∧ p.telegram.dest = t.dest ∧ p.telegram.kind = t.kind ∧ p.telegram.payload = t.payload

theorem agrees_iff (t : Telegram) (p : Placed) : (!p.matched && p.telegram.dest == t.dest && p.telegram.kind == t.kind
    && p.telegram.payload == t.payload) = true ↔ Agrees t p := by
  simp [Agrees, and_assoc]

theorem matchPlaced_none {t : Telegram} : ∀ {l : List Placed}, (∀ p ∈ l, ¬ Agrees t p) → matchPlaced t l = none
  | [], _ => rfl
  | p :: rest, h => by
    rw [matchPlaced, if_neg (mt (agrees_iff t p).mp (h p (by simp))), matchPlaced_none fun q hq => h q (List.mem_cons_of_mem _ hq)]
    rfl

/-- The earliest entry that agrees is marked matched. -/
theorem matchPlaced_first {t : Telegram} {p : Placed} (hp : Agrees t p) (back : List Placed) :
    ∀ {front : List Placed}, (∀ q ∈ front, ¬ Agrees t q) →
      matchPlaced t (front ++ p :: back) = some (p.cue, front ++ { p with matched := true } :: back)
  | [], _ => by
    rw [List.nil_append, matchPlaced, if_pos ((agrees_iff t p).mpr hp)]
    rfl
  | q :: rest, h => by
    rw [List.cons_append, matchPlaced, if_neg (mt (agrees_iff t q).mp (h q (by simp))),
      matchPlaced_first hp back fun x hx => h x (List.mem_cons_of_mem _ hx)]
    rfl

/-! ### One task while a swap may be pending -/

/-- The banks have been exchanged (R69). -/
structure Taken (s t : State) : Prop where
  preset : t.cues.preset = s.cues.live.map Cue.atEntry
  fields : t.cues.live.map Cue.fields = s.cues.preset.map Cue.fields
  placed : t.round.placed = []
  swap : t.cues.swapPending = false

theorem Taken.lists {s t u : State} (h : Taken s t) (k : SameLists t u) : Taken s u :=
  ⟨k.preset.trans h.preset, k.fields.trans h.fields, k.placed.trans h.placed, k.swap.trans h.swap⟩

theorem map_atEntry (l : List Cue) : l.map Cue.atEntry = (l.map Cue.fields).map (fun f => { fields := f }) := by
  simp [Cue.atEntry]

/-- The exchange keeps the lists, whatever the runtime of the outgoing cues. -/
theorem takeSwap_taken {s u : State} {i : CueId} {r : CueRuntime} (h : u.cues = (s.setRuntime i r).cues) : Taken s u.takeSwap := by
  refine ⟨?_, ?_, rfl, rfl⟩
  · change u.cues.live.map Cue.atEntry = _
    rw [h, map_atEntry, map_atEntry]
    exact congrArg _ (putRuntime_fields ..)
  · change u.cues.preset.map Cue.fields = _
    rw [h]
    rfl

theorem nodup_of_lists {s t : State} (h : SameLists s t) (hn : (s.cues.live.map (fun c => c.fields.id)).Nodup) :
    (t.cues.live.map (fun c => c.fields.id)).Nodup := by
  rw [ids_of_fields, h.fields, ← ids_of_fields]
  exact hn

/-- A task keeps the lists and every cue on which it does not act, or takes the swap after acting on a cue. -/
theorem runTask_keeps_or_took {s : State} (hn : (s.cues.live.map (fun c => c.fields.id)).Nodup) (t : Task) :
    ((s.runTask t).swapped = false ∧ SameLists s (s.runTask t).state
        ∧ ∀ i d, s.liveCue i = some d → ¬ Acts d t → (s.runTask t).state.liveCue i = some d)
      ∨ ∃ c ∈ s.cues.live, Acts c t ∧ Took s c (s.runTask t) := by
  rcases runTask_writes s t with e | ⟨c, hc, ⟨hs, -, hb, hw⟩ | ⟨-, took⟩⟩
  · rw [e]
    exact .inl ⟨rfl, .refl s, fun _ _ h _ => h⟩
  · rcases hw with hw | ⟨r, -, hw⟩
    · exact .inl ⟨hs, .of_cues hw hb.placed, fun i _ h _ => (liveCue_congr hw i).trans h⟩
    · refine .inl ⟨hs, ⟨by rw [hw]; exact putRuntime_fields .., by rw [hw]; rfl, by rw [hw]; rfl, hb.placed⟩, fun i d hd ha => ?_⟩
      have other : i ≠ c.fields.id := by
        rintro rfl
        have live := liveCue_of_mem hn (ActsOn.live hc)
        obtain rfl : d = c := Option.some.inj (hd.symm.trans live)
        exact ha (MuxReports.acts_of_actsOn hc)
      exact (liveCue_congr hw i).trans ((liveCue_setRuntime_other other ..).trans hd)
  · exact .inr ⟨c, ActsOn.live hc, MuxReports.acts_of_actsOn hc, took⟩

theorem taken_of_took {s : State} {c : Cue} {e : Effect} (h : Took s c e) : Taken s e.state := by
  obtain ⟨-, u, r, hu, -, he⟩ := h
  rw [he]
  exact takeSwap_taken hu

/-- A cue that is WITHHELD or FIRED and on which a task does not act holds the swap back (R69, R70). -/
theorem took_without_holder {s : State} (hn : (s.cues.live.map (fun c => c.fields.id)).Nodup) {c : Cue}
    (hc : c ∈ s.cues.live) {e : Effect} (h : Took s c e) {d : Cue} (hd : s.liveCue d.fields.id = some d) (hne : d ≠ c) :
    ¬ (d.runtime.state = .withheld ∨ d.runtime.state = .fired) := by
  obtain ⟨-, u, r, hu, hfree, -⟩ := h
  have other : d.fields.id ≠ c.fields.id := fun e => hne (Option.some.inj (hd.symm.trans (e ▸ liveCue_of_mem hn hc)))
  have live : u.liveCue d.fields.id = some d := (liveCue_congr hu _).trans ((liveCue_setRuntime_other other ..).trans hd)
  have := (swapFree_iff u).mp hfree d (liveCue_mem live).1
  rintro (k | k)
  · exact this.1 k
  · exact this.2 k

/-! ### A failure -/

/-- A FIRED cue failed. -/
def failed (c : Cue) (cause : FailureCause) : Cue :=
  { c with runtime := { c.runtime with state := .failed, cause := cause, effectField := none, expected := none } }

/-- The lists are as they were, and the cue stands as it ended. -/
structure Stands (d : Cue) (s t : State) : Prop where
  lists : SameLists s t
  live : t.liveCue d.fields.id = some d

/-- A LIVE cue other than this one holds the swap back. -/
def Held (i : CueId) (s : State) : Prop :=
  ∃ d ∈ s.cues.live, d.fields.id ≠ i ∧ (d.runtime.state = .withheld ∨ d.runtime.state = .fired)

section
variable {s : State} (hn : (s.cues.live.map (fun c => c.fields.id)).Nodup) {c : Cue} (hc : s.liveCue c.fields.id = some c)
  (hf : c.runtime.state = .fired) (cause : FailureCause)
include hc hf

/-- The failure of a FIRED cue is a change of state after its alarm (R77, R100). -/
theorem runTask_fail_settles : ∃ u : State, u.cues = (s.setRuntime c.fields.id (failed c cause).runtime).cues
    ∧ u.round.placed = s.round.placed
    ∧ u.alarmStands (if c.fields.kind = .changeover then srcChangeoverFailed else srcCueFailed) = true
    ∧ s.runTask (.fail c.fields.id cause) = u.settleChange c (failed c cause).runtime := by
  refine ⟨_, ?_, ?_, ?_, runTask_fail hc hf cause⟩
  · exact (raise_alarmsOnly ..).cues.trans (endFlight_cues ..)
  · exact (raise_alarmsOnly ..).placed.trans (Beside.endFlight c.fields _ c).placed
  · refine Eq.trans (congrArg _ ?_) (raise_stands ..)
    simp

/-- The failure is told (R100). -/
theorem runTask_fail_stands : (s.runTask (.fail c.fields.id cause)).state.alarmStands
    (if c.fields.kind = .changeover then srcChangeoverFailed else srcCueFailed) = true := by
  obtain ⟨u, -, -, stands, e⟩ := runTask_fail_settles hc hf cause
  rw [e]
  exact (settleChange_handled ..).stands (by simp) (by split <;> decide) stands

omit hc hf in
theorem holders_iff (s : State) (i : CueId) {r : CueRuntime} (hr : r.state ≠ .withheld ∧ r.state ≠ .fired) :
    (∀ d ∈ (s.setRuntime i r).cues.live, d.runtime.state ≠ .withheld ∧ d.runtime.state ≠ .fired) ↔ ¬ Held i s := by
  have live : (s.setRuntime i r).cues.live = putRuntime s.cues.live i r := rfl
  rw [live, Held]
  simp only [putRuntime, List.forall_mem_map, not_exists, not_and, not_or]
  refine forall_congr' fun d => forall_congr' fun _ => ?_
  by_cases e : d.fields.id = i <;> simp [e, hr]

/-- With nothing else to hold it back a pending swap is taken at once (R69, R70). -/
theorem runTask_fail_takes (hp : s.cues.swapPending = true) (h : ¬ Held c.fields.id s) :
    Taken s (s.runTask (.fail c.fields.id cause)).state := by
  obtain ⟨u, hu, -, -, e⟩ := runTask_fail_settles hc hf cause
  have free := (holders_iff s c.fields.id (r := (failed c cause).runtime) ⟨nofun, nofun⟩).mpr h
  rw [e, settleChange_eq, if_pos ⟨.inr hf, by rw [hu]; exact hp, by rw [hu]; exact free⟩]
  exact takeSwap_taken ((afterChange_cues ..).trans hu)

/-- Else the cue is failed, and its followers and the eligibility of its chain come next (R77). -/
theorem runTask_fail_waits (h : s.cues.swapPending = false ∨ Held c.fields.id s) :
    let e := s.runTask (.fail c.fields.id cause)
    Stands (failed c cause) s e.state ∧ e.swapped = false
      ∧ ∀ d, d.fields.id ≠ c.fields.id → s.liveCue d.fields.id = some d → e.state.liveCue d.fields.id = some d := by
  obtain ⟨u, hu, hplaced, -, e⟩ := runTask_fail_settles hc hf cause
  have notFree : ¬ ((c.runtime.state = .withheld ∨ c.runtime.state = .fired) ∧ u.cues.swapPending = true
      ∧ ∀ d ∈ u.cues.live, d.runtime.state ≠ .withheld ∧ d.runtime.state ≠ .fired) := by
    rintro ⟨-, hp, free⟩
    rw [hu] at hp free
    rcases h with h | h
    · exact absurd (h.symm.trans hp) nofun
    · exact (holders_iff s c.fields.id (r := (failed c cause).runtime) ⟨nofun, nofun⟩).mp free h
  have cues : (afterChange u c (failed c cause).runtime).cues = (s.setRuntime c.fields.id (failed c cause).runtime).cues :=
    (afterChange_cues ..).trans hu
  have placed : (afterChange u c (failed c cause).runtime).round.placed = s.round.placed := hplaced
  simp only [e, settleChange_eq, if_neg notFree]
  refine ⟨⟨⟨?_, ?_, ?_, placed⟩, ?_⟩, trivial, fun d hne hd => ?_⟩
  · rw [cues]; exact putRuntime_fields ..
  · rw [cues]; rfl
  · rw [cues]; rfl
  · exact (liveCue_congr cues _).trans (liveCue_setRuntime_same hc _)
  · exact (liveCue_congr cues _).trans ((liveCue_setRuntime_other hne ..).trans hd)

end

/-! ### What the failure brings -/

section
variable {s : State} (hn : (s.cues.live.map (fun c => c.fields.id)).Nodup) {d : Cue}
include hn

/-- Whatever tasks come next, the ended cue stands, or the swap is taken. -/
theorem runTasks_stands_or_taken (he : d.runtime.state = .failed) {u : State} (h : Stands d s u ∨ Taken s u) (fuel : Nat)
    (tasks : List Task) : Stands d s (runTasks fuel u tasks).1 ∨ Taken s (runTasks fuel u tasks).1 := by
  refine runTasks_induct (fun v => Stands d s v ∨ Taken s v) (fun v t hv => ?_) fuel u tasks h
  rcases hv with hv | hv
  · rcases runTask_keeps_or_took (nodup_of_lists hv.lists hn) t with ⟨-, same, kept⟩ | ⟨c, -, -, took⟩
    · exact .inl ⟨hv.lists.trans same, kept _ _ hv.live (not_acts_ended (.inr (.inl he)) t)⟩
    · have taken := taken_of_took took
      refine .inr ⟨taken.preset.trans ?_, by rw [taken.fields, hv.lists.preset], taken.placed, taken.swap⟩
      rw [map_atEntry, map_atEntry, hv.lists.fields]
  · exact .inr (hv.lists (runTask_stays hv.swap t).lists)

/-- A task that a change of state brings: an eligibility, or the abandonment of a cue that follows another. -/
def FollowsUp (l : List CueFields) (t : Task) : Prop :=
  (∃ n, t = .eligible n) ∨ ∃ f ∈ l, t = .abandonFollower f.id ∧ f.follow ≠ none

omit hn in
theorem followersOf_followUp (l : List Cue) (i : CueId) : ∀ t ∈ followersOf l i, FollowsUp (l.map Cue.fields) t := by
  intro t ht
  obtain ⟨d, hd, rfl⟩ := List.mem_map.mp ht
  obtain ⟨hm, hfo⟩ := List.mem_filter.mp hd
  exact .inr ⟨d.fields, List.mem_map_of_mem hm, rfl, by simp [eq_of_beq hfo]⟩

theorem runTask_followUp (t : Task) (hs : (s.runTask t).swapped = false) :
    ∀ x ∈ (s.runTask t).tasks, FollowsUp ((s.runTask t).state.cues.live.map Cue.fields) x := by
  have brought {v : State} {e : Effect} (hm : Moved v e) (hs : e.swapped = false) :
      ∀ x ∈ e.tasks, FollowsUp (e.state.cues.live.map Cue.fields) x := by
    rcases hm with ⟨-, -, -, ht, -⟩ | ⟨c, -, st, -, ⟨-, -, -, -, ht⟩ | ⟨hw, -⟩⟩
    · rw [ht]; nofun
    · intro x hx
      rw [ht] at hx
      rcases List.mem_append.mp hx with hx | hx
      · split at hx
        · exact followersOf_followUp _ _ x hx
        · cases hx
      · exact .inl ⟨_, List.mem_singleton.mp hx⟩
    · exact absurd (hs.symm.trans hw) nofun
  rcases runTask_moved (by rw [briefs_ids]; exact hn) t with hm | ⟨n, c, -, -, -, hm⟩
  · exact brought hm hs
  · exact brought hm hs

/-- Such a task does not act on a cue that is FIRED, or WITHHELD and follows none. -/
theorem not_acts_followUp {b : Cue} (hb : b ∈ s.cues.live)
    (hh : b.runtime.state = .fired ∨ (b.runtime.state = .withheld ∧ b.fields.follow = none)) {t : Task}
    (ht : FollowsUp (s.cues.live.map Cue.fields) t) : ¬ Acts b t := by
  rcases ht with ⟨n, rfl⟩ | ⟨f, hf, rfl, hfo⟩
  · intro h
    rcases hh with k | ⟨k, -⟩ <;> exact absurd (k.symm.trans h) nofun
  · rintro ⟨hid, hst⟩
    obtain ⟨x, hx, rfl⟩ := List.mem_map.mp hf
    obtain rfl : x = b := Option.some.inj ((liveCue_of_mem hn hx).symm.trans (hid ▸ liveCue_of_mem hn hb))
    rcases hh with k | ⟨-, k⟩
    · rw [k] at hst; simp at hst
    · exact hfo k

/-- A cue that is FIRED, or WITHHELD and follows none, holds the swap back to the end (R69, R70). -/
theorem runTasks_held (he : d.runtime.state = .failed) {b : Cue}
    (hh : b.runtime.state = .fired ∨ (b.runtime.state = .withheld ∧ b.fields.follow = none)) :
    ∀ (fuel : Nat) {u : State} {tasks : List Task}, Stands d s u → u.liveCue b.fields.id = some b →
      (∀ t ∈ tasks, FollowsUp (s.cues.live.map Cue.fields) t) → Stands d s (runTasks fuel u tasks).1
  | 0, _, _, h, _, _ => h
  | _ + 1, _, [], h, _, _ => h
  | fuel + 1, u, t :: rest, h, hb, ht => by
    have apart := nodup_of_lists h.lists hn
    have spares : ¬ Acts b t :=
      not_acts_followUp apart (liveCue_mem hb).1 hh (by rw [h.lists.fields]; exact ht t (by simp))
    unfold runTasks
    rcases runTask_keeps_or_took apart t with ⟨hs, same, kept⟩ | ⟨c, hc, ha, took⟩
    · refine runTasks_held he hh fuel ⟨h.lists.trans same, kept _ _ h.live (not_acts_ended (.inr (.inl he)) t)⟩
        (kept _ _ hb spares) fun x hx => ?_
      rcases List.mem_append.mp hx with hx | hx
      · have := runTask_followUp apart t hs x hx
        rwa [same.fields, h.lists.fields] at this
      · rw [hs] at hx
        exact ht x (List.mem_cons_of_mem _ hx)
    · refine absurd ?_ (took_without_holder apart hc took hb fun e => spares (e ▸ ha))
      exact hh.symm.imp And.left id

end

/-! ### The failure of a returned action's cue -/

/-- All that one task brings is carried out after it. -/
theorem carryOut_runs (s : State) (t : Task) : ∃ fuel,
    s.carryOut [t] = (runTasks fuel (s.runTask t).state (s.runTask t).tasks).1 := by
  refine ⟨s.cues.width * s.cues.rank + [t].length, ?_⟩
  unfold State.carryOut
  conv => lhs; rw [CueEngine.fuel, runTasks]
  simp

section
variable {s : State} (hn : (s.cues.live.map (fun c => c.fields.id)).Nodup) {c : Cue} (hc : s.liveCue c.fields.id = some c)
  (hf : c.runtime.state = .fired) (cause : FailureCause)
include hn hc hf

/-- With no swap pending the cue is failed (R102). -/
theorem carryOut_fail_calm (hp : s.cues.swapPending = false) :
    Stands (failed c cause) s (s.carryOut [.fail c.fields.id cause]) := by
  have calm : Calm s := ⟨hp, hn⟩
  have fails : (s.runTask (.fail c.fields.id cause)).state.liveCue c.fields.id = some (failed c cause) := by
    rw [runTask_fail hc hf]
    exact failCue_liveCue hp hc ..
  exact ⟨carryOut_lists hp _, carryOut_single_finished calm fails rfl⟩

theorem carryOut_fail_stands_or_taken (hp : s.cues.swapPending = true) :
    Stands (failed c cause) s (s.carryOut [.fail c.fields.id cause]) ∨ Taken s (s.carryOut [.fail c.fields.id cause]) := by
  obtain ⟨fuel, e⟩ := carryOut_runs s (.fail c.fields.id cause)
  rw [e]
  refine runTasks_stands_or_taken hn rfl ?_ fuel _
  by_cases h : Held c.fields.id s
  · exact .inl (runTask_fail_waits hc hf cause (.inr h)).1
  · exact .inr (runTask_fail_takes hc hf cause hp h)

omit hn in
theorem carryOut_fail_takes (hp : s.cues.swapPending = true) (h : ¬ Held c.fields.id s) :
    Taken s (s.carryOut [.fail c.fields.id cause]) := by
  obtain ⟨fuel, e⟩ := carryOut_runs s (.fail c.fields.id cause)
  rw [e]
  exact runTasks_induct (Taken s) (fun v t hv => hv.lists (runTask_stays hv.swap t).lists) fuel _ _
    (runTask_fail_takes hc hf cause hp h)

theorem carryOut_fail_held {b : Cue} (hb : b ∈ s.cues.live) (hne : b.fields.id ≠ c.fields.id)
    (hh : b.runtime.state = .fired ∨ (b.runtime.state = .withheld ∧ b.fields.follow = none)) :
    Stands (failed c cause) s (s.carryOut [.fail c.fields.id cause]) := by
  obtain ⟨stands, swapped, kept⟩ := runTask_fail_waits hc hf cause (.inr ⟨b, hb, hne, hh.symm.imp And.left id⟩)
  obtain ⟨fuel, e⟩ := carryOut_runs s (.fail c.fields.id cause)
  rw [e]
  refine runTasks_held hn rfl hh fuel stands (kept b hne (liveCue_of_mem hn hb)) fun x hx => ?_
  have := runTask_followUp hn _ swapped x hx
  rwa [stands.lists.fields] at this

omit hn in
theorem carryOut_fail_told : (s.carryOut [.fail c.fields.id cause]).alarmStands
    (if c.fields.kind = .changeover then srcChangeoverFailed else srcCueFailed) = true := by
  obtain ⟨fuel, e⟩ := carryOut_runs s (.fail c.fields.id cause)
  rw [e]
  refine runTasks_induct (fun v => v.alarmStands _ = true) (fun v t hv => ?_) fuel _ _ (runTask_fail_stands hc hf cause)
  exact (runTask_handled v t).stands (by simp) (by split <;> decide) hv

end

/-! ### The telegram (R16, R102) -/

theorem exec_ownTelegramReturn {s : State} (hw : s.inWindow = true) {dest : Station} {kind : Byte} (hh : kind ≠ kindFieldHead)
    (he : kind ≠ kindRoundEnd) (payload : List Byte) :
    exec (.ownTelegramReturn dest kind payload) s = .next (s.listening.ownReturn (ownTelegram dest kind payload)) := by
  obtain ⟨hrec, hopen⟩ : s.receiving = true ∧ s.windowOpen = true := by simpa [State.inWindow] using hw
  refine congrArg Host.Outcome.next ((received_inWindow hrec _).trans ?_)
  rw [receive_own (s := s.listening) hopen rfl]
  simp [State.sortOwn, ownTelegram, hh, he]

/-- A returned action raises ACTION UNDELIVERED with its addressee (R102). -/
def raisedUndelivered (s : State) (id : CueId) (dest : Station) : State :=
  s.raise srcActionUndelivered
    { chain := (addressee dest).1, group := (addressee dest).2, cue := some id, field := s.fieldCount }

/-- Settles O21: the entry is found by the list, the alarm is raised, and the failure of a FIRED cue takes a pending swap when the
last cue that held it back has left. -/
theorem returnedActionFailsItsCue : Obligations.ReturnedActionFailsItsCue := by
  intro s dest kind payload hw hh he agrees
  refine ⟨fun hnone => ?none, fun front p back hl ha hfront => ?_⟩
  case none =>
    rw [exec_ownTelegramReturn hw hh he]
    have : matchPlaced (ownTelegram dest kind payload) s.listening.round.placed = none :=
      matchPlaced_none (t := ownTelegram dest kind payload) hnone
    simp only [State.ownReturn, this]
  intro id placed v told
  let raised := raisedUndelivered v id dest
  have alarms : AlarmsOnly v raised := raise_alarmsOnly ..
  have cues : raised.cues = s.cues := alarms.cues
  have tells (detail : Detail) : told (v.raise srcActionUndelivered detail) detail :=
    ⟨fun h => raise_tells_new v (by decide) h detail, fun h => raise_tells_again v (by decide) h detail⟩
  have stands : raised.alarmStands srcActionUndelivered = true := raise_stands ..
  refine ⟨raised, raised.carryOut [.fail id .undelivered], ?runs, alarms, fun n hd => ?_, fun g hd => ?_, rfl,
    (carryOut_handled ..).stands (by simp) (by decide) stands, fun hs => carryOut_quiet ?_, fun c hc hf hb => ?fired⟩
  case runs =>
    rw [exec_ownTelegramReturn hw hh he]
    have : matchPlaced (ownTelegram dest kind payload) s.listening.round.placed = some (id, placed) := by
      have placedList : s.listening.round.placed = front ++ p :: back := hl
      rw [placedList]
      exact matchPlaced_first (t := ownTelegram dest kind payload) ha back hfront
    simp only [State.ownReturn, this]
    rfl
  · subst hd
    have detail := tells { chain := some n, cue := some id, field := s.round.fieldCount }
    simp only [raised, raisedUndelivered, addressee_chainAddress]
    exact detail
  · subst hd
    have detail := tells { group := some g, cue := some id, field := s.round.fieldCount }
    simp only [raised, raisedUndelivered, addressee_groupAddress]
    exact detail
  · have live : raised.liveCue id = s.liveCue id := liveCue_congr cues id
    simp only [State.runTask, State.onCue, live]
    cases hc : s.liveCue id with
    | none => rfl
    | some c => simp [hs c hc]
  case fired =>
    obtain ⟨-, hid⟩ := liveCue_mem hc
    have live : raised.liveCue id = some c := (liveCue_congr cues id).trans hc
    have apart : (raised.cues.live.map (fun c => c.fields.id)).Nodup := by
      rw [cues]; exact (Calm.of_bankSound (s := { s with cues := { s.cues with swapPending := false } }) rfl hb).2
    rw [← hid] at live ⊢
    intro failedSo takenSo others
    have isFailed (h : Stands (failed c .undelivered) raised (raised.carryOut [.fail c.fields.id .undelivered])) : failedSo :=
      ⟨fateOf_eq h.live, h.lists.placed.trans alarms.placed, h.lists.swap.trans (congrArg CueEngine.swapPending cues)⟩
    have isTaken (h : Taken raised (raised.carryOut [.fail c.fields.id .undelivered])) : takenSo :=
      ⟨by rw [h.preset, cues], by rw [h.fields, cues], h.placed, h.swap⟩
    have held : Held c.fields.id raised ↔ others fun d => d.runtime.state = .withheld ∨ d.runtime.state = .fired := by
      rw [Held, cues]
    have pending : raised.cues.swapPending = s.cues.swapPending := by rw [cues]
    refine ⟨alarms.cuesOnly.trans (carryOut_cuesOnly ..), carryOut_fail_told live hf _,
      fun hp => isFailed (carryOut_fail_calm apart live hf _ (pending.trans hp)),
      fun hp => (carryOut_fail_stands_or_taken apart live hf _ (pending.trans hp)).imp isFailed isTaken,
      fun hp ho => isTaken (carryOut_fail_takes live hf _ (pending.trans hp) (mt held.mp ho)), fun hp ho => ?_⟩
    obtain ⟨b, hm, hne, hh⟩ := ho
    exact isFailed (carryOut_fail_held apart live hf _ (by rw [cues]; exact hm) hne hh)

end Sys2Proof.Proofs.Undelivered
end

section
/-! Field arithmetic: fields-to-frame, and what an update, an evaluation, an arming and a take hand a cue to
(R45 to R55, R40, R95). -/

namespace Sys2Proof.Proofs.FrameTiming

open Sys2Proof Sys2Proof.Machine Sys2Proof.Proofs.Positions Sys2Proof.Proofs.Fates Sys2Proof.Proofs.Abandoning
  Sys2Proof.Proofs.Handling Sys2Proof.Proofs.Reports

/-! ### Fields-to-frame (R33, R46, R47) -/

/-- The fields of all frames before a frame. -/
def fieldsBefore (cad : Cadence) (c : Nat) : Int :=
  match cad with
  | .twoTwo => 2 * c
  | .twoThree => 5 * (c / 2 : Nat) + if c % 2 = 0 then 0 else 2

theorem fieldsBefore_succ (cad : Cadence) (c : Nat) : fieldsBefore cad (c + 1) = fieldsBefore cad c + fieldsOf cad c := by
  cases cad with
  | twoTwo => simp only [fieldsBefore, fieldsOf]; omega
  | twoThree =>
    simp only [fieldsBefore, fieldsOf]
    rcases Nat.mod_two_eq_zero_or_one c with h | h
    · rw [if_neg (by omega), if_pos h, if_pos h]; omega
    · rw [if_pos (by omega), if_neg (by omega), if_neg (by omega)]; omega

theorem fieldsAhead_eq (cad : Cadence) {c t : Nat} (h : c ≤ t) (p : Nat) :
    fieldsAhead cad c p t = fieldsBefore cad t - fieldsBefore cad c - p := by
  cases cad with
  | twoTwo => simp only [fieldsAhead, fieldsBefore]; omega
  | twoThree =>
    simp only [fieldsAhead, fieldsBefore, fieldsOf]
    rcases Nat.mod_two_eq_zero_or_one (t - c) with hd | hd <;> rcases Nat.mod_two_eq_zero_or_one c with hc | hc
    · rw [hd, if_pos hc, if_pos (show t % 2 = 0 by omega)]; omega
    · rw [hd, if_neg (show ¬ c % 2 = 0 by omega), if_neg (show ¬ t % 2 = 0 by omega)]; omega
    · rw [hd, if_pos hc, if_neg (show ¬ t % 2 = 0 by omega), if_pos hc]; omega
    · rw [hd, if_neg (show ¬ c % 2 = 0 by omega), if_pos (show t % 2 = 0 by omega), if_neg (show ¬ c % 2 = 0 by omega)]; omega

/-- Fields-to-frame is the difference of the fields before the two positions (R46, R47). -/
theorem fieldsToFrame_eq (cad : Cadence) (c p t : Nat) :
    fieldsToFrame cad c p t = fieldsBefore cad t - fieldsBefore cad c - p := by
  unfold fieldsToFrame
  split
  · exact fieldsAhead_eq cad (by omega) p
  · rw [fieldsAhead_eq cad (by omega)]; omega

theorem fieldsToFrame_successor {cad : Cadence} {frame : Frame} {phase : BitVec 2} (hf : frame.toNat < 65535)
    (hp : phase.toNat < fieldsOf cad frame.toNat) (t : Nat) :
    fieldsToFrame cad (successor cad frame phase).1.toNat (successor cad frame phase).2.toNat t
      = fieldsToFrame cad frame.toNat phase.toNat t - 1 := by
  simp only [fieldsToFrame_eq]
  by_cases h : phase.toNat + 1 < fieldsOf cad frame.toNat
  · rw [successor_within_frame h, toNat_phase_add_one h]
    push_cast
    omega
  · have next : (frame + 1).toNat = frame.toNat + 1 := by rw [toNat_frame_add_one, if_neg (by omega)]
    have start : (0 : BitVec 2).toNat = 0 := rfl
    rw [successor_at_last_phase (by omega), next, fieldsBefore_succ, start]
    omega

theorem fieldsToFrame_back {cad : Cadence} {c t : Nat} (p : Nat) :
    fieldsToFrame cad c p t = -(fieldsToFrame cad t 0 c + p) := by
  simp only [fieldsToFrame_eq]
  omega

theorem fieldsToFrame_ahead {cad : Cadence} {c t : Nat} (h : c < t) (p : Nat) : fieldsToFrame cad c p t = fieldsAhead cad c p t :=
  if_pos h

/-! ### An update notice (R40, R50, R92) -/

theorem recordUpdate_due (s : State) (n : ChainNo) (u : Field) :
    (s.recordUpdate n u).liveIds (fun c => c.runtime.state == .armed && c.fields.frameTimed && c.fields.referenceChain == n)
      = (s.cues.live.filter (fun c => c.runtime.state == .armed && (c.fields.release == .auto || c.fields.release == .gated)
          && c.fields.kind != .park && c.fields.reference.getD c.fields.chain == n)).map (fun c => c.fields.id) := by
  refine congrArg (List.map _) (List.filter_congr fun c _ => ?_)
  simp only [CueFields.frameTimed, ← Bool.and_assoc]
  rfl

theorem firedOf_map (s : State) (n : ChainNo) (task : CueId → Task) : (s.firedOf n).map task
    = (s.cues.live.filter (fun c => c.runtime.state == .fired && c.fields.chain == n)).map (fun c => task c.fields.id) :=
  List.map_map ..

theorem updateNotice_eq (s : State) (n : ChainNo) (u : Field) :
    s.updateNotice n u true = (s.updateNotice n u false).carryOut
      (((s.updateNotice n u false).cues.live.filter (fun c => c.runtime.state == .fired && c.fields.chain == n)).map
        (fun c => .judgeArrival c.fields.id u)) :=
  congrArg (State.carryOut _) (firedOf_map (s.updateNotice n u false) n fun id => .judgeArrival id u)

/-! ### An evaluation (R48 to R54, R95) -/

theorem moveField_eq (u : Field) (d : Int) : moveField u d = u + BitVec.ofInt 16 d := by
  rw [moveField, BitVec.ofInt_add]
  simp

section
variable {s : State} {c : Cue}

theorem evaluateCue_unqualified (h : ¬ ((s.chain c.fields.referenceChain).state = .atSpeed
    ∧ (s.chain c.fields.referenceChain).stale = false)) : s.evaluateCue c = s.quiet := by
  have : ¬ ((s.chain c.fields.referenceChain).state == .atSpeed && !(s.chain c.fields.referenceChain).stale) = true := by
    simpa using h
  unfold State.evaluateCue
  dsimp only
  split
  · rfl
  · rw [if_neg this]

theorem evaluateCue_unheard (h : s.cues.updateField[c.fields.referenceChain] = none) : s.evaluateCue c = s.quiet := by
  simp only [State.evaluateCue, h]

/-- On a chain at speed and not stale the due distance is compared with the fields since the update (R51, log 7). -/
theorem evaluateCue_qualified (h : (s.chain c.fields.referenceChain).state = .atSpeed
    ∧ (s.chain c.fields.referenceChain).stale = false) {u : Field} (hu : s.cues.updateField[c.fields.referenceChain] = some u) :
    s.evaluateCue c = if s.dueDistance c.fields ≤ fieldDiff s.fieldCount u then
        if (s.cues.limit : Int) < fieldDiff s.fieldCount u - s.dueDistance c.fields then
          s.failCue c { c.runtime with dueField := some (u + BitVec.ofInt 16 (s.dueDistance c.fields)) } .missed
        else s.dueCue c (u + BitVec.ofInt 16 (s.dueDistance c.fields))
      else if s.lampUpDue c (s.dueDistance c.fields) (fieldDiff s.fieldCount u) then (s.lampUp c).quiet
      else s.quiet := by
  have : ((s.chain c.fields.referenceChain).state == .atSpeed && !(s.chain c.fields.referenceChain).stale) = true := by
    simpa using h
  simp only [State.evaluateCue, hu, ← moveField_eq]
  rw [if_pos this]

theorem lampUpDue_iff (s : State) (c : Cue) (due slack : Int) : s.lampUpDue c due slack = true ↔
    c.fields.kind = .start ∧ 0 < (s.chain c.fields.chain).config.lampLead ∧ c.runtime.lampSent = false ∧ s.cues.rehearse = false
      ∧ due - (s.chain c.fields.chain).config.lampLead ≤ slack := by
  simp [State.lampUpDue, and_assoc]

/-- A cue failed MISSED (R53). -/
def missed (c : Cue) (due : Field) : CueRuntime :=
  { c.runtime with dueField := some due, state := .failed, cause := .missed, effectField := none, expected := none }

/-- The failure of an ARMED cue: nothing was in flight, and it held no swap back (R53, R77, R100). -/
theorem failCue_armed (ha : c.runtime.state = .armed) (due : Field) : ∃ detail,
    (s.failCue c { c.runtime with dueField := some due } .missed).state
      = afterChange ((s.setRuntime c.fields.id (missed c due)).raise
          (if c.fields.kind = .changeover then srcChangeoverFailed else srcCueFailed) detail) c (missed c due) := by
  have flight : ((s.setRuntime c.fields.id (missed c due)).endFlight c) = s.setRuntime c.fields.id (missed c due) := by
    simp [State.endFlight, ha]
  have source : (if c.fields.kind = .changeover then srcChangeoverFailed else srcCueFailed)
      = if c.fields.kind == .changeover then srcChangeoverFailed else srcCueFailed := by simp
  refine ⟨(s.setRuntime c.fields.id (missed c due)).cueDetail c FailureCause.missed.asCause, ?_⟩
  rw [source]
  change (State.settleChange (((s.setRuntime c.fields.id (missed c due)).endFlight c).raise _
    (((s.setRuntime c.fields.id (missed c due)).endFlight c).cueDetail c FailureCause.missed.asCause)) c (missed c due)).state = _
  rw [flight, settleChange_eq, if_neg (by simp [ha])]

theorem afterChange_alarmsOnly {s t : State} (h : AlarmsOnly s t) (c : Cue) (r : CueRuntime) :
    AlarmsOnly (afterChange s c r) (afterChange t c r) := by
  obtain ⟨_, _, _, _, _, _, rfl⟩ := h.elim
  unfold afterChange
  split
  · rfl
  · rfl

/-- What a MISSED cue leaves (R53, R100). -/
theorem failCue_missed (hc : s.liveCue c.fields.id = some c) (ha : c.runtime.state = .armed) (due : Field) :
    let t := (s.failCue c { c.runtime with dueField := some due } .missed).state
    t.liveCue c.fields.id = some { c with runtime := missed c due }
      ∧ t.alarmStands (if c.fields.kind = .changeover then srcChangeoverFailed else srcCueFailed) = true
      ∧ AlarmsOnly { s with
          cues := { s.cues with live := t.cues.live }
          round := { s.round with sets := s.round.sets.filter (fun a => a.cue != c.fields.id) } } t := by
  obtain ⟨detail, e⟩ := failCue_armed (s := s) ha due
  generalize hsrc : (if c.fields.kind = .changeover then srcChangeoverFailed else srcCueFailed) = src at e ⊢
  have raised := raise_alarmsOnly (s.setRuntime c.fields.id (missed c due)) src detail
  have cues := (afterChange_cues ((s.setRuntime c.fields.id (missed c due)).raise src detail) c (missed c due)).trans raised.cues
  dsimp only
  rw [e]
  refine ⟨(liveCue_congr cues _).trans (liveCue_setRuntime_same hc _), raise_stands .., ?_⟩
  have frame := afterChange_alarmsOnly raised c (missed c due)
  rw [cues]
  exact frame

end

/-- Settles O27: fields-to-frame as a difference of field counts; the rest says what each notice and each evaluation is. -/
theorem fieldsToFrameFallsByOne : Obligations.FieldsToFrameFallsByOne := by
  refine ⟨fun cad frame phase t hf hp => fieldsToFrame_successor hf hp t,
    fun cad c p t => ⟨fun h hc => ?_, fun h hc he => ?_, fun h hc ho => ?_, fun _ => fieldsToFrame_back p⟩, fun s n u => ?notice,
    fun s n dest payload v hw hd hr he hv => ?report, fun s c hc ha => ?evaluation, fun s c => ?arming⟩
  · rw [fieldsToFrame_ahead h, hc]; rfl
  · rw [fieldsToFrame_ahead h, hc]
    simp [fieldsAhead, he]
  · rw [fieldsToFrame_ahead h, hc]
    simp [fieldsAhead, ho, fieldsOf]
  case notice =>
    have evaluated : s.updateNotice n u false = _ := congrArg (fun ids : List CueId =>
      (s.recordUpdate n u).carryOut (ids.map Task.evaluate)) (recordUpdate_due s n u)
    rw [List.map_map] at evaluated
    intro w e fired
    refine ⟨evaluated, (updateNotice_eq s n u).trans ?_⟩
    rw [evaluated]
    rfl
  case report =>
    have runs : (s.listening.noteReported (chainAddress n)).chainArrival n payload
        = (s.listening.noteReported (chainAddress n)).arrival n v := by
      have enabled : ((s.listening.noteReported (chainAddress n)).chain n).config.enabled = true := he
      have valid : validChainReport ((s.listening.noteReported (chainAddress n)).chain n).config.cadence payload = some v := hv
      simp only [State.chainArrival, enabled, valid, if_true]
    obtain ⟨u, hu, hn, hcount, e⟩ := arrival_eq (s.listening.noteReported (chainAddress n)) n v
    intro f left record stored judged updated fired noticed
    have same : u = judged := by
      by_cases h : left ≠ .faulted ∧ record.state = .faulted
      · exact (hu h).trans (if_pos h).symm
      · exact (hn h).trans (if_neg h).symm
    rw [exec_chainReport hw hd hr, runs, e, hcount, same]
    have notice : updated.entryNotice n record.state (some f) = noticed :=
      congrArg updated.carryOut (firedOf_map updated n fun id => .judgeEntry id record.state (some f))
    refine congrArg Host.Outcome.next ?_
    change State.stateChange updated n left record.state (some f) = _
    rw [State.stateChange, notice]
  case evaluation =>
    intro f ref config qualifies lead distance
    have dist : s.dueDistance c.fields = distance := rfl
    refine ⟨evaluateCue_unqualified, evaluateCue_unheard, fun u hq hu => ?_⟩
    have eval := evaluateCue_qualified (c := c) hq hu
    rw [dist] at eval
    intro since found lampUp
    refine ⟨fun h1 h2 => ?_, fun h1 h2 => ?_, fun h1 h2 => ?_, fun h1 h2 => ?_⟩
    · rw [eval, if_pos h1, if_neg (not_lt.mpr h2)]; rfl
    · rw [eval, if_pos h1, if_pos h2]
      exact failCue_missed hc ha _
    · rw [eval, if_neg (not_le.mpr h1), if_pos ((lampUpDue_iff ..).mpr h2)]
      rfl
    · rw [eval, if_neg (not_le.mpr h1), if_neg (mt (lampUpDue_iff ..).mp h2)]
  case arming =>
    intro f found dueNow
    refine ⟨fun h hk => ?_, fun h hk => ?_, fun h hk => ?_, fun h => ?_, fun ha h => ?_, fun ha h hk => ?_, fun ha => ?_⟩
    · rcases h with h | h
      · cases hk' : c.fields.kind <;> simp_all [State.afterArming, f]
      · cases hk' : c.fields.kind <;> simp_all [State.afterArming, f]
    · simp only [State.afterArming, show c.fields.release = .auto from h, show c.fields.kind = .park from hk]; rfl
    · simp only [State.afterArming, show c.fields.release = .gated from h, show c.fields.kind = .park from hk]
    · rcases h with h | h <;> simp only [State.afterArming, show c.fields.release = _ from h]
    · have : (c.fields.release == .take || c.fields.kind == .park) = true := by simpa using h
      simp only [State.actOnTake, ha]
      rw [if_pos this]
      rfl
    · have : ¬ (c.fields.release == .take || c.fields.kind == .park) = true := by
        simp [show c.fields.release = .gated from h, show c.fields.kind ≠ .park from hk]
      simp only [State.actOnTake, ha]
      rw [if_neg this]
    · simp only [State.actOnTake, ha]

end Sys2Proof.Proofs.FrameTiming
end

section
/-! LOAD CUE past the gate: the fields it stores, where it places them, and the cue followed (R60, R63 to R65). -/

namespace Sys2Proof.Proofs.LoadCue

open Sys2Proof Sys2Proof.Machine Sys2Proof.Proofs.Basics Sys2Proof.Proofs.CueBanks Sys2Proof.Proofs.Steps

/-! ### The fields loaded (R60, R63, R205) -/

theorem kindOf_eq_none : ∀ b : Byte, kindOf b = none ↔ ¬ (1 ≤ b.toNat ∧ b.toNat ≤ 6) := by decide

theorem kindOf_park : ∀ b : Byte, kindOf b = some .park ↔ b = 1 := by decide

theorem kindOf_shutter : ∀ b : Byte, kindOf b = some .shutter ↔ b = 5 := by decide

theorem releaseOf_eq_none : ∀ b : Byte, releaseOf b = none ↔ ¬ (1 ≤ b.toNat ∧ b.toNat ≤ 4) := by decide

theorem senseOf_eq_none (b : Byte) : senseOf b = none ↔ b ≠ 1 ∧ b ≠ 2 := by
  unfold senseOf
  split
  · next h => simp [h]
  · next h => split <;> simp_all

theorem yesNo_eq_some {b : Byte} {x : Bool} (h : yesNo b = some x) : x = (b == 1) := by
  unfold yesNo at h
  split at h
  · next e => rw [e, ← Option.some.inj h]; rfl
  · split at h
    · next e => rw [e, ← Option.some.inj h]; rfl
    · cases h

theorem goodId_iff (id : CueId) : goodId id = true ↔ 1 ≤ id.toNat ∧ id.toNat ≤ 999 := by simp [goodId]

/-- An optional number refused: present, and not one of the range (R205). -/
theorem optionalIndex_eq_none (b : Byte) : optionalIndex 8 b = none ↔ b ≠ 0xFF ∧ ¬ (1 ≤ b.toNat ∧ b.toNat ≤ 8) := by
  unfold optionalIndex
  split
  · next h => simp [h]
  · next h =>
    rw [Option.map_eq_none_iff, indexOf_eq_none]
    simp only [ne_eq, h, not_false_eq_true, true_and]
    omega

theorem optionalIndex_eq_some {b : Byte} {x : Option (Fin 8)} (h : optionalIndex 8 b = some x) : x = indexOf 8 b := by
  unfold optionalIndex at h
  split at h
  · next e =>
    rw [← Option.some.inj h, e]
    rfl
  · obtain ⟨i, hi, rfl⟩ := Option.map_eq_some_iff.mp h
    exact hi.symm

theorem referenceFor_eq_none (k : CueKind) (b : Byte) :
    referenceFor k b = none ↔ k ≠ .park ∧ b ≠ 0xFF ∧ ¬ (1 ≤ b.toNat ∧ b.toNat ≤ 8) := by
  rw [← optionalIndex_eq_none]
  unfold referenceFor
  split
  · next h => simp [eq_of_beq h]
  · next h => simp [show k ≠ .park from fun e => h (by simp [e])]

theorem referenceFor_eq_some {k : CueKind} {b : Byte} {x : Option ChainNo} (h : referenceFor k b = some x) :
    x = if k = .park then none else indexOf 8 b := by
  unfold referenceFor at h
  split at h
  · next e => rw [if_pos (eq_of_beq e), ← Option.some.inj h]
  · next e => rw [if_neg (fun he => e (by simp [he])), optionalIndex_eq_some h]

theorem senseFor_eq_none (k : CueKind) (b : Byte) : senseFor k b = none ↔ k = .shutter ∧ b ≠ 1 ∧ b ≠ 2 := by
  rw [← senseOf_eq_none]
  unfold senseFor
  split
  · next h => simp [eq_of_beq h]
  · next h => simp [show k ≠ .shutter from fun e => h (by simp [e])]

theorem senseFor_eq_some {k : CueKind} {b : Byte} {x : Option Sense} (h : senseFor k b = some x) :
    x = if k = .shutter then senseOf b else none := by
  unfold senseFor at h
  split at h
  · next e =>
    obtain ⟨y, hy, rfl⟩ := Option.map_eq_some_iff.mp h
    rw [if_pos (eq_of_beq e), hy]
  · next e => rw [if_neg (fun he => e (by simp [he])), ← Option.some.inj h]

/-- The loaded fields are stored when every one of them has its meaning (R60, R63). -/
theorem loadedFields_eq_some {p : LoadParams} {f : CueFields} : loadedFields p = some f ↔
    ∃ chain, indexOf 8 p.chain = some chain ∧ ∃ kind, kindOf p.kind = some kind ∧ ∃ release, releaseOf p.release = some release
      ∧ ∃ snapshot, yesNo p.snapshot = some snapshot ∧ ∃ reference, referenceFor kind p.reference = some reference
      ∧ ∃ permit, optionalIndex 8 p.permit = some permit ∧ ∃ sense, senseFor kind p.sense = some sense ∧ goodId p.id = true
      ∧ f = { id := p.id, chain := chain, kind := kind, reference := reference, frame := p.frame
              offset := offsetFor release p.offset.toInt, release := release
              follow := if release == .follow then optionalId p.follow else none
              permit := permit, snapshot := snapshot, sense := sense } := by
  simp only [loadedFields, Option.bind_eq_bind, Option.bind_eq_some_iff, Option.ite_none_right_eq_some, Option.some.injEq,
    eq_comm (a := f)]

/-- A field of LOAD CUE outside its values (R60, R63). -/
def BadField (p : LoadParams) : Prop :=
  ¬ (1 ≤ p.id.toNat ∧ p.id.toNat ≤ 999) ∨ ¬ (1 ≤ p.chain.toNat ∧ p.chain.toNat ≤ 8) ∨ ¬ (1 ≤ p.kind.toNat ∧ p.kind.toNat ≤ 6)
    ∨ ¬ (1 ≤ p.release.toNat ∧ p.release.toNat ≤ 4) ∨ 2 ≤ p.snapshot.toNat
    ∨ (p.kind ≠ 1 ∧ p.reference ≠ 0xFF ∧ ¬ (1 ≤ p.reference.toNat ∧ p.reference.toNat ≤ 8))
    ∨ (p.permit ≠ 0xFF ∧ ¬ (1 ≤ p.permit.toNat ∧ p.permit.toNat ≤ 8)) ∨ (p.kind = 5 ∧ p.sense ≠ 1 ∧ p.sense ≠ 2)

theorem loadedFields_bad {p : LoadParams} (h : BadField p) : loadedFields p = none := by
  refine Option.eq_none_iff_forall_ne_some.mpr fun f hf => ?_
  obtain ⟨chain, hc, kind, hk, release, hr, snapshot, hs, reference, href, permit, hp, sense, hse, hid, -⟩ :=
    loadedFields_eq_some.mp hf
  have absent {α : Type} {x : Option α} {y : α} (hn : x = none) (hy : x = some y) : False := by
    rw [hn] at hy; cases hy
  rcases h with h | h | h | h | h | ⟨h1, h⟩ | h | ⟨h1, h⟩
  · exact h ((goodId_iff _).mp hid)
  · exact absent ((indexOf_eq_none 8 _).mpr (by omega)) hc
  · exact absent ((kindOf_eq_none _).mpr h) hk
  · exact absent ((releaseOf_eq_none _).mpr h) hr
  · exact absent ((yesNo_eq_none _).mpr h) hs
  · exact absent ((referenceFor_eq_none ..).mpr ⟨fun e => h1 ((kindOf_park _).mp (e ▸ hk)), h⟩) href
  · exact absent ((optionalIndex_eq_none _).mpr h) hp
  · have shutter := (kindOf_shutter _).mpr h1
    exact absent ((senseFor_eq_none ..).mpr ⟨Option.some.inj (hk.symm.trans shutter), h⟩) hse

/-- The stored fields, as R60 and R63 give them. -/
structure Loaded (p : LoadParams) (f : CueFields) : Prop where
  id : f.id = p.id
  chain : indexOf 8 p.chain = some f.chain
  kind : kindOf p.kind = some f.kind
  release : releaseOf p.release = some f.release
  frame : f.frame = p.frame
  snapshot : f.snapshot = (p.snapshot == 1)
  permit : f.permit = indexOf 8 p.permit
  reference : f.reference = if f.kind = .park then none else indexOf 8 p.reference
  sense : f.sense = if f.kind = .shutter then senseOf p.sense else none
  follow : f.follow = if f.release = .follow ∧ p.follow ≠ 0 then some p.follow else none
  offset : f.offset = if f.release = .follow then max 0 (min 250 p.offset.toInt) else max (-99) (min 99 p.offset.toInt)

theorem loadedFields_good {p : LoadParams} (h : ¬ BadField p) : ∃ f, loadedFields p = some f ∧ Loaded p f := by
  simp only [BadField, not_or] at h
  obtain ⟨hid, hc, hk, hr, hs, href, hp, hse⟩ := h
  have present {α : Type} {x : Option α} (hx : x ≠ none) : ∃ y, x = some y := Option.ne_none_iff_exists'.mp hx
  obtain ⟨chain, hc⟩ := present (mt (indexOf_eq_none 8 p.chain).mp (by omega))
  obtain ⟨kind, hk⟩ := present (mt (kindOf_eq_none p.kind).mp hk)
  obtain ⟨release, hr⟩ := present (mt (releaseOf_eq_none p.release).mp hr)
  obtain ⟨snapshot, hs⟩ := present (mt (yesNo_eq_none p.snapshot).mp hs)
  obtain ⟨reference, href⟩ := present (mt (referenceFor_eq_none kind p.reference).mp fun ⟨h1, h⟩ =>
    href ⟨fun e => h1 (Option.some.inj (hk.symm.trans ((kindOf_park _).mpr e))), h⟩)
  obtain ⟨permit, hp⟩ := present (mt (optionalIndex_eq_none p.permit).mp hp)
  obtain ⟨sense, hse⟩ := present (mt (senseFor_eq_none kind p.sense).mp fun ⟨h1, h⟩ =>
    hse ⟨(kindOf_shutter _).mp (h1 ▸ hk), h⟩)
  refine ⟨_, loadedFields_eq_some.mpr ⟨chain, hc, kind, hk, release, hr, snapshot, hs, reference, href, permit, hp, sense, hse,
    (goodId_iff _).mpr (not_not.mp hid), rfl⟩, rfl, hc, hk, hr, rfl, yesNo_eq_some hs, optionalIndex_eq_some hp,
    referenceFor_eq_some href, senseFor_eq_some hse, ?_, ?_⟩
  · simp only [optionalId, beq_iff_eq]
    by_cases h1 : release = .follow <;> by_cases h2 : p.follow = 0 <;> simp [h1, h2]
  · simp only [offsetFor, beq_iff_eq, clampInt]

/-! ### The place (R64) and the cue followed (R65) -/

section
variable {bank : List Cue} {c : Cue}

/-- A cue of the bank has this id. -/
def Here (bank : List Cue) (i : CueId) : Prop := ∃ x ∈ bank, x.fields.id = i

theorem findCue_present {i : CueId} (h : Here bank i) : (findCue bank i).isSome = true := (findCue_isSome_iff ..).mpr h

theorem findCue_absent {i : CueId} (h : ¬ Here bank i) : (findCue bank i).isSome = false :=
  Bool.eq_false_iff.mpr (mt (findCue_isSome_iff ..).mp h)

theorem placeCue_tail (h : ¬ Here bank c.fields.id) :
    placeCue bank c none = if 64 ≤ bank.length then .inr .full else .inl (bank ++ [c]) := by
  simp only [placeCue, findCue_absent h, ge_iff_le]

theorem placeCue_before (h : ¬ Here bank c.fields.id) {b : CueId} (hb : Here bank b) :
    placeCue bank c (some b) = if 64 ≤ bank.length then .inr .full else .inl (insertBefore c b bank) := by
  have : (findCue bank b).isNone = false := by simpa using findCue_present hb
  simp only [placeCue, findCue_absent h, this, ge_iff_le, Bool.false_eq_true, if_false]

theorem placeCue_missing {b : CueId} (hb : ¬ Here bank b) : placeCue bank c (some b) = .inr .notFound := by
  have : (findCue bank b).isNone = true := by simpa using findCue_absent hb
  unfold placeCue
  cases (findCue bank c.fields.id).isSome <;> simp only [this, if_true]

theorem placeCue_again (h : Here bank c.fields.id) : placeCue bank c none = .inl (replaceCue c bank) := by
  simp only [placeCue, findCue_present h]

theorem placeCue_again_before (h : Here bank c.fields.id) {b : CueId} (hb : Here bank b) : placeCue bank c (some b)
    = if standsBefore c.fields.id b bank then .inl (replaceCue c bank) else .inr .duplicate := by
  have : (findCue bank b).isNone = false := by simpa using findCue_present hb
  simp only [placeCue, findCue_present h, this, Bool.false_eq_true, if_false]

theorem insertBefore_first (c : Cue) {x : Cue} (back : List Cue) : ∀ {front : List Cue},
    (∀ y ∈ front, y.fields.id ≠ x.fields.id) → insertBefore c x.fields.id (front ++ x :: back) = front ++ c :: x :: back
  | [], _ => by simp [insertBefore]
  | y :: rest, h => by
    rw [List.cons_append, insertBefore, if_neg (h y (by simp)),
      insertBefore_first c back fun z hz => h z (List.mem_cons_of_mem _ hz)]
    rfl

theorem replaceCue_eq (bank : List Cue) (c : Cue) :
    replaceCue c bank = bank.map (fun x => if x.fields.id = c.fields.id then c else x) := by
  simp only [replaceCue, beq_iff_eq]

/-- One cue stands immediately before another: two neighbours of the list have these ids (R64). -/
theorem standsBefore_iff (id next : CueId) : ∀ l : List Cue, standsBefore id next l = true ↔
    ∃ front x y back, l = front ++ x :: y :: back ∧ x.fields.id = id ∧ y.fields.id = next
  | [] => by simp [standsBefore]
  | [a] => by
    simp only [standsBefore, Bool.false_eq_true, false_iff, not_exists, not_and]
    intro front x y back h
    have := congrArg List.length h
    simp at this
    omega
  | a :: b :: rest => by
    rw [standsBefore, Bool.or_eq_true, standsBefore_iff id next (b :: rest), Bool.and_eq_true, beq_iff_eq, beq_iff_eq]
    constructor
    · rintro (⟨ha, hb⟩ | ⟨front, x, y, back, e, hx, hy⟩)
      · exact ⟨[], a, b, rest, rfl, ha, hb⟩
      · exact ⟨a :: front, x, y, back, by rw [e]; rfl, hx, hy⟩
    · rintro ⟨front, x, y, back, e, hx, hy⟩
      cases front with
      | nil =>
        obtain ⟨rfl, rfl, -⟩ : a = x ∧ b = y ∧ rest = back := by simpa using e
        exact .inl ⟨hx, hy⟩
      | cons z front =>
        obtain ⟨-, e⟩ : a = z ∧ b :: rest = front ++ x :: y :: back := by simpa using e
        exact .inr ⟨front, x, y, back, e, hx, hy⟩

/-- A cue with one id stands before every cue with another, and one of those stands behind it. -/
def Precedes (first second : CueId) (l : List Cue) : Prop := ∃ front x back, l = front ++ x :: back ∧ x.fields.id = first
  ∧ (∀ y ∈ front ++ [x], y.fields.id ≠ second) ∧ ∃ y ∈ back, y.fields.id = second

theorem standsEarlier_iff (first second : CueId) : ∀ l : List Cue, standsEarlier first second l = true ↔ Precedes first second l
  | [] => by simp [standsEarlier, Precedes]
  | a :: rest => by
    rw [standsEarlier]
    split
    · next hs =>
      simp only [Bool.false_eq_true, false_iff]
      rintro ⟨front, x, back, e, -, hne, -⟩
      cases front with
      | nil => exact hne x (by simp) ((List.cons.inj e).1 ▸ hs)
      | cons z front => exact hne z (by simp) ((List.cons.inj e).1 ▸ hs)
    · next hs =>
      split
      · next hf =>
        simp only [List.any_eq_true, beq_iff_eq]
        constructor
        · rintro ⟨y, hy, hid⟩
          exact ⟨[], a, rest, rfl, hf, by simpa using hs, y, hy, hid⟩
        · rintro ⟨front, x, back, e, -, -, y, hy, hid⟩
          refine ⟨y, ?_, hid⟩
          cases front with
          | nil => exact (List.cons.inj e).2 ▸ hy
          | cons z front => exact (List.cons.inj e).2 ▸ List.mem_append_right _ (List.mem_cons_of_mem _ hy)
      · next hf =>
        rw [standsEarlier_iff first second rest]
        constructor
        · rintro ⟨front, x, back, e, hx, hne, hy⟩
          refine ⟨a :: front, x, back, by rw [e]; rfl, hx, fun y hm => ?_, hy⟩
          rcases List.mem_cons.mp hm with rfl | hm
          · exact hs
          · exact hne y hm
        · rintro ⟨front, x, back, e, hx, hne, hy⟩
          cases front with
          | nil => exact absurd ((List.cons.inj e).1 ▸ hx) hf
          | cons z front =>
            exact ⟨front, x, back, (List.cons.inj e).2, hx, fun y hm => hne y (List.mem_cons_of_mem _ hm), hy⟩

end

/-- A FOLLOW cue stands behind the cue it follows (R65). -/
theorem followHolds_iff (l : List Cue) (f : CueFields) : followHolds l f = true ↔
    f.release ≠ .follow ∨ ∃ i, f.follow = some i ∧ Precedes i f.id l := by
  unfold followHolds
  split
  · next h =>
    have hr := eq_of_beq h
    cases hf : f.follow with
    | none => simp [hr]
    | some i => simp [hr, standsEarlier_iff]
  · next h => exact ⟨fun _ => .inl fun e => h (by simp [e]), fun _ => rfl⟩

/-! ### The command -/

section
variable {s : State} {p : LoadParams} {f : CueFields}

theorem loadPreset_bad (h : loadedFields p = none) : s.loadPreset p = (s, refuse (some p.id) .badField) := by
  simp only [State.loadPreset, h]

theorem loadPreset_refused (h : loadedFields p = some f) {r : Reason}
    (hp : placeCue s.cues.preset { fields := f } (optionalId p.before) = .inr r) : s.loadPreset p = (s, refuse (some p.id) r) := by
  simp only [State.loadPreset, h, hp]

theorem loadPreset_placed (h : loadedFields p = some f) {l : List Cue}
    (hp : placeCue s.cues.preset { fields := f } (optionalId p.before) = .inl l) : s.loadPreset p
      = if followHolds l f then (s.setPreset l, accept (some p.id)) else (s, refuse (some p.id) .badReference) := by
  simp only [State.loadPreset, h, hp]

theorem optionalId_zero {i : CueId} (h : i = 0) : optionalId i = none := if_pos h

theorem optionalId_some {i : CueId} (h : i ≠ 0) : optionalId i = some i := if_neg h

end

theorem exec_loadCue (params : List Byte) (s : State) :
    exec (.loadCue params) s = .next (s.deskCommand 0x01 params (some loadCue)) := rfl

/-- Settles O29: the fields by their tables, the place by the list, the cue followed by its position in the list. -/
theorem loadCueAppendsToPreset : Obligations.LoadCueAppendsToPreset := by
  intro s i0 i1 chain kind ref f0 f1 o0 o1 rel w0 w1 permit snap sense b0 b1 hs hp id before bank command u refused numbered bad
  let p : LoadParams :=
    { id := word i0 i1, chain := chain, kind := kind, reference := ref, frame := word f0 f1, offset := word o0 o1,
      release := rel, follow := word w0 w1, permit := permit, snapshot := snap, sense := sense, before := word b0 b1 }
  have runs {t : State} {r : Option Reason} (h : s.listening.loadPreset p = (t, .reply (some id) r [[]]))
      (hf : t.fieldCount = s.fieldCount) : exec command s = .next (t.answered 0x01 (some id) r []) := by
    refine (exec_loadCue ..).trans (congrArg Host.Outcome.next (deskCommand_one hs _ _ _ _ _ _ ?_ hf))
    simp only [loadCue, editGate_preset (s := s.listening) hp]
    exact congrArg some h
  refine ⟨fun hbad => runs (loadPreset_bad (loadedFields_bad hbad)) rfl, fun hgood => ?_⟩
  obtain ⟨f, hf, loaded⟩ := loadedFields_good (p := p) hgood
  refine ⟨f, ⟨loaded.id, loaded.chain, loaded.kind, loaded.release, loaded.frame, loaded.snapshot, loaded.permit,
    loaded.reference, loaded.sense, loaded.follow, loaded.offset⟩, ?_⟩
  intro new here followed stored
  have hid : new.fields.id = id := loaded.id
  have isFollowed (l : List Cue) : followHolds l f = true ↔ f.release ≠ .follow ∨ followed l := by
    rw [followHolds_iff, loaded.id]
    refine or_congr Iff.rfl ⟨?_, ?_⟩
    · rintro ⟨i, hi, front, x, back, e, rfl, rest⟩
      exact ⟨front, x, back, e, hi, rest⟩
    · rintro ⟨front, x, back, e, hi, rest⟩
      exact ⟨_, hi, front, x, back, e, rfl, rest⟩
  have refuses {b : Option CueId} (hb : optionalId before = b) {r : Reason} (h : placeCue bank new b = .inr r) : refused r :=
    runs (loadPreset_refused hf (by rw [← hb] at h; exact h)) rfl
  have stores {b : Option CueId} (hb : optionalId before = b) {l : List Cue} (h : placeCue bank new b = .inl l) : stored l := by
    have placed := loadPreset_placed (s := s.listening) hf (l := l) (by rw [← hb] at h; exact h)
    refine ⟨fun ho => runs (placed.trans (if_pos ((isFollowed l).mpr ho))) rfl, fun hr hn => runs (placed.trans (if_neg ?_)) rfl⟩
    rw [isFollowed, not_or, not_not]
    exact ⟨hr, hn⟩
  have replaced : replaceCue new bank = bank.map (fun c => if c.fields.id = id then new else c) := by rw [replaceCue_eq, hid]
  have presence (h : here id) : Here bank new.fields.id := by rw [hid]; exact h
  have absence (h : ¬ here id) : ¬ Here bank new.fields.id := by rw [hid]; exact h
  refine ⟨fun h h0 hl => refuses (optionalId_zero h0) ?_, fun h h0 hl => stores (optionalId_zero h0) ?_,
    fun h h0 hb => refuses (optionalId_some h0) (placeCue_missing hb), fun h h0 hb hl => refuses (optionalId_some h0) ?_,
    fun h h0 hl front x back hbank hx hfront => stores (optionalId_some h0) ?_, fun h h0 => stores (optionalId_zero h0) ?_,
    fun h h0 hb => refuses (optionalId_some h0) (placeCue_missing hb), fun h h0 hb hn => stores (optionalId_some h0) ?_,
    fun h h0 hb hn => refuses (optionalId_some h0) ?_⟩
  · rw [placeCue_tail (absence h), if_pos hl]
  · rw [placeCue_tail (absence h), if_neg (by omega)]
  · rw [placeCue_before (absence h) hb, if_pos hl]
  · rw [placeCue_before (absence h) ⟨x, by rw [hbank]; simp, hx⟩, if_neg (by omega), hbank, ← hx,
      insertBefore_first new back (by rw [hx]; exact hfront)]
  · rw [placeCue_again (presence h), replaced]
  · rw [placeCue_again_before (presence h) hb, if_pos (by rw [standsBefore_iff, hid]; exact hn), replaced]
  · rw [placeCue_again_before (presence h) hb, if_neg (by rw [standsBefore_iff, hid]; exact hn)]

end Sys2Proof.Proofs.LoadCue
end

section
/-! A desk command at its arrival: UNKNOWN, LENGTH, no room, no window, RST active (R6, R19, R188, R189, R191). -/

namespace Sys2Proof.Proofs.DeskArrival

open Sys2Proof Sys2Proof.Machine

/-! ### The rows of the command table -/

/-- A command's work answers nothing to parameters of another length (R189). -/
def NeedsLength (n : Nat) (work : Handler) : Prop := ∀ p s, p.length ≠ n → work p s = none

/-- A selector without a parameter count has no work. -/
theorem handlerOf_unknown : ∀ b : Byte, parameterCount b = none → (handlerOf b).isNone = true := by decide

/-- A selector with a parameter count stands in the table. -/
theorem selector_listed : ∀ b : Byte, parameterCount b = none ∨ b ∈ deskRows.map Prod.fst := by decide

/-- What is said of every row of the table is said of each in turn. -/
theorem deskRows_work : ∀ row ∈ deskRows, ∃ n work, parameterCount row.1 = some n ∧ handlerOf row.1 = some work
    ∧ NeedsLength n work ∧ ∀ p s, exec (row.2 p) s = .next (s.deskCommand row.1 p (some work)) := by
  simp only [deskRows, List.forall_mem_cons, List.not_mem_nil, false_implies, implies_true, and_true]
  and_intros
  all_goals refine ⟨_, _, rfl, rfl, fun p s h => ?_, fun p s => rfl⟩
  all_goals
    delta loadCue deleteCue clearBank swap cancelSwap abandon Machine.take allStop setChain setGroup clearFault setPermit setWindow
      clearWindow setWatch setAlarm setAlmThreshold setSnapshot setRehearse setWithholdLimit acknowledge snap readSnapshots
      readStatus readChain readGroup readCue readBank readWatch readPermit readWindow readAlarms clear resetController
    split
    · exact absurd rfl h
    · rfl

theorem exec_unknownSelector (selector : Byte) (p : List Byte) (s : State) :
    exec (.unknownSelector selector p) s = .next (s.deskCommand selector p (handlerOf selector)) := rfl

/-! ### The tests of an arrival -/

section
variable {s : State} (selector : Byte) (p : List Byte)

theorem deskCommand_unknown (h : s.deskReady = true) :
    s.deskCommand selector p none = s.listening.answered selector none (some .unknown) [] := by
  have room : s.listening.replyRoom ≠ 0 := Nat.sub_ne_zero_of_lt (deskReady_elim h).2.2
  rw [deskCommand_ready h, State.performDesk, if_neg room]
  rfl

theorem deskCommand_length (h : s.deskReady = true) {work : Handler} (hw : work p s.listening = none) :
    s.deskCommand selector p (some work) = s.listening.answered selector none (some .length) [] := by
  have room : s.listening.replyRoom ≠ 0 := Nat.sub_ne_zero_of_lt (deskReady_elim h).2.2
  rw [deskCommand_ready h, State.performDesk, if_neg room]
  simp only [hw]
  rfl

/-- A command that finds sixteen replies waiting is discarded (R191). -/
theorem deskCommand_full (hw : s.inWindow = true) (hr : s.round.replies.length = 16) (work : Option Handler) :
    s.deskCommand selector p work = s.listening := by
  obtain ⟨hrec, hopen⟩ : s.receiving = true ∧ s.windowOpen = true := by simpa [State.inWindow] using hw
  have full : s.listening.replyRoom = 0 := by simp [State.replyRoom, hr]
  have opened : s.listening.windowOpen = true := hopen
  simp only [State.deskCommand, received_inWindow hrec, opened, State.performDesk, full, if_true]

/-- A command with no window open is discarded (R6, R188). -/
theorem deskCommand_shut (hr : s.receiving = true) (hw : s.windowOpen = false) (work : Option Handler) :
    s.deskCommand selector p work = s.listening := by
  have shut : ¬ s.listening.windowOpen = true := Bool.eq_false_iff.mp hw
  rw [State.deskCommand, received_inWindow hr, if_neg shut]

/-- While RST is active nothing is received (R19). -/
theorem deskCommand_deaf (hr : s.receiving = false) (work : Option Handler) : s.deskCommand selector p work = s := by
  have active : s.rstActive = true := by simpa [State.receiving] using hr
  rw [State.deskCommand, State.received, if_pos active]

end

/-- Settles O58: each row is its selector's work, and the tests of an arrival come before that work. -/
theorem badCommandsAreRefusedOrDropped : Obligations.BadCommandsAreRefusedOrDropped := by
  intro s selector p
  refine ⟨fun h hn => ?_, fun n h hn hl => ?_, fun hw hr => congrArg Host.Outcome.next (deskCommand_full selector p hw hr _),
    fun row hrow => ?rows⟩
  · rw [exec_unknownSelector, Option.isNone_iff_eq_none.mp (handlerOf_unknown selector hn), deskCommand_unknown selector p h]
  · have listed : selector ∈ deskRows.map Prod.fst :=
      (selector_listed selector).resolve_left fun e => absurd (hn.symm.trans e) nofun
    obtain ⟨row, hrow, rfl⟩ := List.mem_map.mp listed
    obtain ⟨m, work, hm, hwork, hlen, -⟩ := deskRows_work row hrow
    obtain rfl : n = m := Option.some.inj (hn.symm.trans hm)
    rw [exec_unknownSelector, hwork, deskCommand_length row.1 p h (hlen p _ hl)]
  case rows =>
    obtain ⟨m, work, hm, hwork, hlen, runs⟩ := deskRows_work row hrow
    refine ⟨?_, fun n h hn hl => ?_, fun hw hr => ?_, fun hr hw => ?_, fun hr => ?_⟩
    · rw [runs, exec_unknownSelector, hwork]
    · obtain rfl : n = m := Option.some.inj (hn.symm.trans hm)
      rw [runs, deskCommand_length row.1 p h (hlen p _ hl)]
    · rw [runs, deskCommand_full row.1 p hw hr]
    · rw [runs, deskCommand_shut row.1 p hr hw]
    · rw [runs, deskCommand_deaf row.1 p hr]

end Sys2Proof.Proofs.DeskArrival
end

section
/-! The layout of what the reads answer: flag bytes, words, the parts of READ BANK and READ ALARMS (sections 11.3 and 12.4). -/

namespace Sys2Proof.Proofs.ReplyLayout

open Sys2Proof Sys2Proof.Machine

/-! ### Bytes -/

/-- The item i of a flag byte stands in bit i (section 12.4). -/
theorem flagByte_getLsbD : ∀ (l : List Bool) (i : Nat), i < 8 → (flagByte l).getLsbD i = l.getD i false
  | [], i, _ => by simp [flagByte]
  | b :: rest, 0, _ => by cases b <;> simp [flagByte]
  | b :: rest, i + 1, h => by
    have := flagByte_getLsbD rest i (by omega)
    rw [BitVec.getLsbD_eq_getElem (by omega), List.getD_eq_getElem?_getD] at this
    cases b <;> simp [flagByte, h, this]

theorem wordBytes_eq (w : BitVec 16) : wordBytes w = [w.extractLsb' 0 8, w.extractLsb' 8 8] := by
  have low : w.setWidth 8 = w.extractLsb' 0 8 := by
    ext i h
    simp [show i < 16 by omega]
  have high : (w >>> 8).setWidth 8 = w.extractLsb' 8 8 := by
    ext i h
    simp
  rw [wordBytes, low, high]

/-- Eight items to a byte: byte i gathers the items from 8 i on. -/
theorem flagBytes_eq : ∀ l : List Bool,
    flagBytes l = (List.range ((l.length + 7) / 8)).map (fun i => flagByte ((l.drop (8 * i)).take 8))
  | a :: b :: c :: d :: e :: f :: g :: h :: rest => by
    have parts : ((a :: b :: c :: d :: e :: f :: g :: h :: rest).length + 7) / 8 = (rest.length + 7) / 8 + 1 := by
      simp only [List.length_cons]
      omega
    rw [flagBytes, parts, List.range_succ_eq_map, List.map_cons, List.map_map, flagBytes_eq rest]
    refine congrArg₂ _ rfl (List.map_congr_left fun i _ => ?_)
    rw [Function.comp_apply, Nat.mul_succ]
    simp [List.drop_succ_cons]
  | [] | [_] | [_, _] | [_, _, _] | [_, _, _, _] | [_, _, _, _, _] | [_, _, _, _, _, _] | [_, _, _, _, _, _, _] => by
    simp [flagBytes]

/-- Item j of the list is bit j mod 8 of byte j div 8. -/
theorem flagBytes_getLsbD (l : List Bool) {i j : Nat} (hi : i < (flagBytes l).length) (hj : j < 8) :
    (flagBytes l)[i].getLsbD j = l.getD (8 * i + j) false := by
  simp only [flagBytes_eq, List.getElem_map, List.getElem_range]
  rw [flagByte_getLsbD _ j hj]
  simp [List.getD_eq_getElem?_getD, hj]

theorem flagBytes_length (l : List Bool) : (flagBytes l).length = (l.length + 7) / 8 := by
  rw [flagBytes_eq]
  simp

/-- Two items for each member of a list, in turn. -/
theorem getD_pairs {α : Type} (x y : α → Bool) : ∀ (l : List α) (k : Nat) (h : k < l.length),
    (l.flatMap (fun a => [x a, y a])).getD (2 * k) false = x l[k]
      ∧ (l.flatMap (fun a => [x a, y a])).getD (2 * k + 1) false = y l[k]
  | [], k, h => by simp at h
  | a :: rest, 0, _ => by simp
  | a :: rest, k + 1, h => by
    have := getD_pairs x y rest k (by simpa using h)
    rw [Nat.mul_succ]
    simpa using this

/-! ### The parts of READ BANK (R198) -/

/-- The entries six to a part, one part at least. -/
theorem bankParts_eq (front : List Byte) : ∀ (fuel : Nat) (bank : List Cue), bank.length < fuel → bankParts front fuel bank
    = (List.range (max 1 ((bank.length + 5) / 6))).map (fun i => front ++ ((bank.drop (6 * i)).take 6).flatMap bankEntry)
  | 0, bank, h => by omega
  | fuel + 1, bank, h => by
    rw [bankParts]
    by_cases hd : bank.length ≤ 6
    · have empty : (bank.drop 6).isEmpty = true := by simpa using hd
      have one : max 1 ((bank.length + 5) / 6) = 1 := by omega
      rw [if_pos empty, one]
      rfl
    · have more : ¬ (bank.drop 6).isEmpty = true := by simpa using hd
      have parts : max 1 ((bank.length + 5) / 6) = max 1 (((bank.drop 6).length + 5) / 6) + 1 := by
        rw [List.length_drop]
        omega
      rw [if_neg more, bankParts_eq front fuel (bank.drop 6) (by rw [List.length_drop]; omega), parts, List.range_succ_eq_map,
        List.map_cons, List.map_map]
      refine congrArg₂ _ rfl (List.map_congr_left fun i _ => ?_)
      rw [Function.comp_apply, List.drop_drop, Nat.mul_succ, Nat.add_comm]

/-! ### The position of an entry (R171, R200) -/

theorem entryPosition_first {src : Source} {e : Entry} (he : e.source = src) (below : List Entry) :
    ∀ {above : List Entry} (i : Nat), (∀ x ∈ above, x.source ≠ src) →
      entryPosition src (above ++ e :: below) i = some (above.length + i, e)
  | [], i, _ => by simp [entryPosition, he]
  | x :: rest, i, h => by
    rw [List.cons_append, entryPosition, if_neg (h x (by simp)),
      entryPosition_first he below (i + 1) fun y hy => h y (List.mem_cons_of_mem _ hy), List.length_cons]
    exact congrArg (fun k => some (k, e)) (by omega)

theorem entryPosition_none {src : Source} : ∀ {l : List Entry} (i : Nat), (∀ x ∈ l, x.source ≠ src) → entryPosition src l i = none
  | [], _, _ => rfl
  | x :: rest, i, h => by
    rw [entryPosition, if_neg (h x (by simp)), entryPosition_none (i + 1) fun y hy => h y (List.mem_cons_of_mem _ hy)]

/-! ### The replies of an answer (R190, R196) -/

section
variable (selector : Byte) (key : Option (BitVec 16)) (o : Option Reason) (f : Field)

theorem numberParts_eq : ∀ (parts : List (List Byte)) (k : Nat), numberParts selector key o f (k + 1) parts
    = parts.mapIdx (fun i d =>
        { selector := selector, key := key, outcome := o, field := f, part := k + i + 1, last := decide (i + 1 = parts.length)
          data := d })
  | [], _ => rfl
  | d :: rest, k => by
    have last : rest.isEmpty = decide (0 + 1 = (d :: rest).length) := by cases rest <;> simp
    rw [numberParts, numberParts_eq rest (k + 1), List.mapIdx_cons, last]
    refine congrArg₂ _ rfl ?_
    refine congrArg (fun g => rest.mapIdx g) (funext fun i => funext fun x => ?_)
    have number : k + 1 + i + 1 = k + (i + 1) + 1 := by omega
    simp [number]

theorem numberParts_field (parts : List (List Byte)) : ∀ r ∈ numberParts selector key o f 1 parts, r.field = f := by
  rw [numberParts_eq]
  intro r hr
  obtain ⟨i, hi, rfl⟩ := List.mem_mapIdx.mp hr
  rfl

theorem numberParts_part (parts : List (List Byte)) :
    (numberParts selector key o f 1 parts).map Reply.part = (List.range parts.length).map (· + 1) := by
  rw [numberParts_eq]
  refine List.ext_getElem (by simp) fun i h1 h2 => ?_
  simp

theorem numberParts_last {parts : List (List Byte)} (h : parts ≠ []) : (numberParts selector key o f 1 parts).map Reply.last
    = List.replicate (parts.length - 1) false ++ [true] := by
  have pos := List.length_pos_of_ne_nil h
  rw [numberParts_eq]
  refine List.ext_getElem (by simp; omega) fun i h1 h2 => ?_
  simp only [List.length_map, List.length_mapIdx] at h1
  by_cases hi : i + 1 = parts.length
  · rw [List.getElem_append_right (by simp; omega)]
    simp [hi]
  · rw [List.getElem_append_left (by simp; omega)]
    simp [hi]

end

end Sys2Proof.Proofs.ReplyLayout
end

section
/-! The read commands: their refusals, their parts, and the data of each (R171, R190, R191, R196 to R200). -/

namespace Sys2Proof.Proofs.Reads

open Sys2Proof Sys2Proof.Machine Sys2Proof.Proofs.Basics Sys2Proof.Proofs.DeskArrival Sys2Proof.Proofs.ReplyLayout

/-! ### A read at its arrival (R190, R191) -/

/-- A read leaves the state, and answers with one part at least, or its parameters have not its length. -/
def ReadsOnly (work : Handler) : Prop :=
  ∀ p s t a, work p s = some (t, a) → t = s ∧ ∃ key outcome parts, a = .reply key outcome parts ∧ parts ≠ []

section
variable {s : State} (h : s.deskReady = true) (sel : Byte) {p : List Byte} {work : Handler} {key : Option (BitVec 16)}
  {outcome : Option Reason} {parts : List (List Byte)} (hw : work p s.listening = some (s.listening, .reply key outcome parts))
include h hw

/-- With room for all its parts a read queues them (R196). -/
theorem read_answered (hroom : s.round.replies.length + parts.length ≤ 16) :
    s.deskCommand sel p (some work) = s.listening.queueReplies (numberParts sel key outcome s.fieldCount 1 parts) := by
  have room : s.listening.replyRoom ≠ 0 := Nat.sub_ne_zero_of_lt (deskReady_elim h).2.2
  have fits : ¬ s.listening.replyRoom < parts.length := by simp only [State.replyRoom, listening_round]; omega
  rw [deskCommand_ready h, State.performDesk, if_neg room]
  simp only [hw, State.queueAnswer, fits, if_false, listening_fieldCount]

/-- Without room for all its parts a read is refused BUSY in one reply (R191). -/
theorem read_busy (hroom : 16 < s.round.replies.length + parts.length) :
    s.deskCommand sel p (some work) = s.listening.answered sel key (some .busy) [] := by
  have room : s.listening.replyRoom ≠ 0 := Nat.sub_ne_zero_of_lt (deskReady_elim h).2.2
  have held : s.round.replies.length < 16 := (deskReady_elim h).2.2
  have short : s.listening.replyRoom < parts.length := by simp only [State.replyRoom, listening_round]; omega
  rw [deskCommand_ready h, State.performDesk, if_neg room]
  simp only [hw, State.queueAnswer, short, if_true]
  rfl

end

/-- What the replies of one read have in common (R190, R191, R196). -/
structure WellNumbered (s : State) (replies : List Reply) : Prop where
  some : replies ≠ []
  room : s.round.replies.length + replies.length ≤ 16
  field : ∀ r ∈ replies, r.field = s.round.fieldCount
  part : replies.map Reply.part = (List.range replies.length).map (· + 1)
  last : replies.map Reply.last = List.replicate (replies.length - 1) false ++ [true]

/-- One reply is number 1 and the last. -/
theorem WellNumbered.single {s : State} (h : s.deskReady = true) {r : Reply} (hf : r.field = s.round.fieldCount) (hp : r.part = 1)
    (hl : r.last = true) : WellNumbered s [r] where
  some := by simp
  room := (deskReady_elim h).2.2
  field x hx := by rw [List.mem_singleton.mp hx, hf]
  part := by simp [hp]
  last := by simp [hl]

theorem WellNumbered.parts {s : State} {parts : List (List Byte)} (hne : parts ≠ [])
    (hroom : s.round.replies.length + parts.length ≤ 16) (sel : Byte) (key : Option (BitVec 16)) (outcome : Option Reason) :
    WellNumbered s (numberParts sel key outcome s.fieldCount 1 parts) := by
  have len := Steps.numberParts_length sel key outcome s.fieldCount 1 parts
  refine ⟨fun e => hne (List.length_eq_zero_iff.mp (by rw [← len, e]; rfl)), by rw [len]; exact hroom,
    numberParts_field sel key outcome _ parts, by rw [len]; exact numberParts_part ..,
    by rw [len]; exact numberParts_last _ _ _ _ hne⟩

/-- Every read only adds its replies to class 5 (R196). -/
theorem ReadsOnly.replies {work : Handler} (hr : ReadsOnly work) {s : State} (h : s.deskReady = true) (sel : Byte) (p : List Byte) :
    ∃ replies, s.deskCommand sel p (some work) = s.listening.queueReplies replies ∧ WellNumbered s replies := by
  cases hw : work p s.listening with
  | none => exact ⟨_, deskCommand_length sel p h hw, .single h rfl rfl rfl⟩
  | some x =>
    obtain ⟨t, a⟩ := x
    obtain ⟨rfl, key, outcome, parts, rfl, hne⟩ := hr p s.listening t a hw
    by_cases hroom : s.round.replies.length + parts.length ≤ 16
    · exact ⟨_, read_answered h sel hw hroom, .parts hne hroom ..⟩
    · exact ⟨_, read_busy h sel hw (by omega), .single h rfl rfl rfl⟩

/-! ### What each read answers -/

section
variable {s : State}

theorem readChain_bad {b : Byte} (h : indexOf 8 b = none) : readChain [b] s = some (s, refuse (byteKey b) .badField) := by
  simp only [readChain, h]

theorem readChain_of {b : Byte} {n : ChainNo} (h : indexOf 8 b = some n) :
    readChain [b] s = some (s, .reply (byteKey b) none [(s.chain n).part1, (s.chain n).part2]) := by
  simp only [readChain, h]

theorem readGroup_bad {b : Byte} (h : groupOfCode b = none) : readGroup [b] s = some (s, refuse (byteKey b) .badField) := by
  simp only [readGroup, h]

theorem readGroup_of {b : Byte} {g : GroupId} (h : groupOfCode b = some g) :
    readGroup [b] s = some (s, acceptWith (byteKey b) (s.group g).data) := by
  simp only [readGroup, h]

theorem readCue_noBank {b : Byte} (h : bankOf b = none) (i0 i1 : Byte) :
    readCue [b, i0, i1] s = some (s, refuse (some (word i0 i1)) .badField) := by
  simp only [readCue, h]

theorem readCue_badId {b : Byte} {name : BankName} (h : bankOf b = some name) {i0 i1 : Byte} (hid : goodId (word i0 i1) = false) :
    readCue [b, i0, i1] s = some (s, refuse (some (word i0 i1)) .badField) := by
  simp only [readCue, h, hid, Bool.not_false, if_true]

theorem readCue_notFound {b : Byte} {name : BankName} (h : bankOf b = some name) {i0 i1 : Byte}
    (hid : goodId (word i0 i1) = true) (hc : findCue (s.bank name) (word i0 i1) = none) :
    readCue [b, i0, i1] s = some (s, refuse (some (word i0 i1)) .notFound) := by
  simp only [readCue, h, hid, hc, Bool.not_true, Bool.false_eq_true, if_false]

theorem readCue_of {b : Byte} {name : BankName} (h : bankOf b = some name) {i0 i1 : Byte} (hid : goodId (word i0 i1) = true)
    {c : Cue} (hc : findCue (s.bank name) (word i0 i1) = some c) :
    readCue [b, i0, i1] s = some (s, .reply (some (word i0 i1)) none [c.fields.part1, c.runtime.part2]) := by
  simp only [readCue, h, hid, hc, Bool.not_true, Bool.false_eq_true, if_false]

theorem readBank_bad {b : Byte} (h : bankOf b = none) : readBank [b] s = some (s, refuse none .badField) := by
  simp only [readBank, h]

/-- The parts of READ BANK (R198). -/
theorem readBank_of {b : Byte} {name : BankName} (h : bankOf b = some name) : readBank [b] s = some (s, .reply none none
    ((List.range (max 1 (((s.bank name).length + 5) / 6))).map (fun i =>
      [byteOf (bankCode name), byteOf (s.bank name).length] ++ (((s.bank name).drop (6 * i)).take 6).flatMap bankEntry))) := by
  simp only [readBank, h]
  rw [bankParts_eq _ _ _ (by omega)]

theorem readWatch_bad {b : Byte} (h : indexOf 16 b = none) : readWatch [b] s = some (s, refuse (byteKey b) .badField) := by
  simp only [readWatch, h]

theorem readWatch_of {b : Byte} {k : WatchNo} (h : indexOf 16 b = some k) :
    readWatch [b] s = some (s, acceptWith (byteKey b) s.watches.watches[k].data) := by
  simp only [readWatch, h]

theorem readPermit_bad {b : Byte} (h : indexOf 8 b = none) : readPermit [b] s = some (s, refuse (byteKey b) .badField) := by
  simp only [readPermit, h]

theorem readPermit_of {b : Byte} {i : Fin 8} (h : indexOf 8 b = some i) : readPermit [b] s = some (s, acceptWith (byteKey b)
    (s.permits[i].selectors.toList.map (fun c => byteOf (conditionCode c)) ++ wordBytes s.permits[i].entries)) := by
  simp only [readPermit, h]

theorem readWindow_bad {b : Byte} (h : indexOf 16 b = none) : readWindow [b] s = some (s, refuse (byteKey b) .badField) := by
  simp only [readWindow, h]

theorem readWindow_of {b : Byte} {w : WindowNo} (h : indexOf 16 b = some w) :
    readWindow [b] s = some (s, acceptWith (byteKey b) (windowData s.windows[w])) := by
  simp only [readWindow, h]

theorem readAlarms_bad {b : Byte} (hb : b ≠ 0xFF) (h : sourceOf b = none) :
    readAlarms [b] s = some (s, refuse (byteKey b) .badField) := by
  simp only [readAlarms, hb, h, if_false]

theorem readAlarms_of {b : Byte} {src : Source} (h : sourceOf b = some src) :
    readAlarms [b] s = some (s, .reply (byteKey b) none [s.alarms.sourcePart1 src, s.alarms.sourcePart2 src]) := by
  have hb : b ≠ 0xFF := by
    rintro rfl
    exact absurd h nofun
  simp only [readAlarms, hb, h, if_false]

theorem readAlarms_all (s : State) : readAlarms [0xFF] s = some (s, .reply none none s.alarms.overview) := rfl

end

/-- The nine reads leave the state and answer (R196). -/
theorem reads_only : ∀ work ∈ ([readStatus, readChain, readGroup, readCue, readBank, readWatch, readPermit, readWindow,
    readAlarms] : List Handler), ReadsOnly work := by
  simp only [List.forall_mem_cons, List.not_mem_nil, false_implies, implies_true, and_true]
  refine ⟨fun p s t a e => ?_, fun p s t a e => ?_, fun p s t a e => ?_, fun p s t a e => ?_, fun p s t a e => ?_,
    fun p s t a e => ?_, fun p s t a e => ?_, fun p s t a e => ?_, fun p s t a e => ?_⟩
  all_goals
    simp only [readStatus, readChain, readGroup, readCue, readBank, readWatch, readPermit, readWindow, readAlarms] at e
    repeat' split at e
  all_goals cases e
  all_goals exact ⟨rfl, _, _, _, rfl, by simp [bankParts, AlarmUnit.overview]⟩

end Sys2Proof.Proofs.Reads
end

section
/-! What each read answers, item by item, and the codes it stands in (R196 to R200, section 12.4). -/

namespace Sys2Proof.Proofs.ReadData

open Sys2Proof Sys2Proof.Machine Sys2Proof.Proofs.Basics Sys2Proof.Proofs.DeskArrival Sys2Proof.Proofs.ReplyLayout
  Sys2Proof.Proofs.Reads

/-! ### READ ALARMS without a source (R200) -/

/-- The pending and repeat items of the 42 sources, in turn. -/
def pendingItems (a : AlarmUnit) : List Bool :=
  a.pending.toList.flatMap (fun p => [p.isSome, (p.map PendingRecord.again).getD false])

theorem overview_eq (a : AlarmUnit) : a.overview =
    [[flagByte [a.alm], byteOf a.threshold.val, byteOf a.inService.length]
        ++ (a.inService.take 4).flatMap (fun e => [byteOf e.source.val, byteOf (e.level.val + if e.again then 128 else 0)]),
      (a.inService.drop 4).flatMap (fun e => [byteOf e.source.val, byteOf (e.level.val + if e.again then 128 else 0)]),
      flagBytes (pendingItems a)] := by
  refine congrArg₂ List.cons ?_ (congrArg₂ List.cons ?_ (congrArg₂ List.cons (congrArg flagBytes ?_) rfl))
  · rw [← List.map_take]
    rfl
  · rw [← List.map_drop]
    rfl
  · exact List.flatMap_congr fun p _ => by cases p <;> rfl

theorem pendingItems_length (a : AlarmUnit) : (pendingItems a).length = 84 := by
  simp [pendingItems, List.length_flatMap]

/-- The third part: eleven bytes, two bits to a source (log 44). -/
def pendingBytes (a : AlarmUnit) : Vector Byte 11 :=
  ⟨(flagBytes (pendingItems a)).toArray, by simp [flagBytes_length, pendingItems_length]⟩

theorem pendingBytes_toList (a : AlarmUnit) : (pendingBytes a).toList = flagBytes (pendingItems a) := rfl

theorem pendingBytes_getLsbD (a : AlarmUnit) (src : Source) :
    (pendingBytes a)[src.val / 4].getLsbD (2 * (src.val % 4)) = a.pending[src].isSome
      ∧ (pendingBytes a)[src.val / 4].getLsbD (2 * (src.val % 4) + 1) = (a.pending[src].map PendingRecord.again).getD false := by
  have len : src.val / 4 < (flagBytes (pendingItems a)).length := by
    rw [flagBytes_length, pendingItems_length]
    omega
  have bit (j : Nat) (hj : j < 8) : (pendingBytes a)[src.val / 4].getLsbD j
      = (pendingItems a).getD (8 * (src.val / 4) + j) false := flagBytes_getLsbD _ len hj
  obtain ⟨first, second⟩ := getD_pairs (fun p : Option PendingRecord => p.isSome)
    (fun p => (p.map PendingRecord.again).getD false) a.pending.toList src.val (by simp)
  have index : 8 * (src.val / 4) + 2 * (src.val % 4) = 2 * src.val := by omega
  rw [bit _ (by omega), bit _ (by omega), ← Nat.add_assoc, index]
  exact ⟨first.trans (by simp), second.trans (by simp)⟩

/-! ### The other data -/

theorem groupData_eq (r : GroupRecord) (code : Option ChainNo → Nat) (hcode : ∀ x, code x = (x.map (fun n => n.val + 1)).getD 0) :
    r.data = [flagByte [r.selected.isSome, r.fault, r.holder.isSome, r.inFlight.isSome,
        (r.inFlight.bind InFlight.outgoing).isSome]]
      ++ r.map.toList.map (fun e => byteOf (code e))
      ++ [byteOf ((r.selected.map Fin.val).getD 0), byteOf (code r.holder),
        flagByte [r.causes.faulted, r.causes.speed, r.causes.silent, r.causes.runOut]]
      ++ wordBytes ((r.inFlight.map InFlight.cue).getD 0)
      ++ [byteOf (code (r.inFlight.map InFlight.incoming)), byteOf ((r.inFlight.map (fun x => x.input.val + 1)).getD 0),
        byteOf (code (r.inFlight.bind InFlight.outgoing))] := by
  obtain rfl : code = chainCode := funext fun x => (hcode x).trans (by cases x <;> rfl)
  unfold GroupRecord.data
  cases r.selected <;> cases r.inFlight <;> simp [chainCode, wordBytes, byteOf]

theorem statusData_eq (s : State) : s.statusData =
    [flagByte [s.cues.rehearse, s.cues.swapPending, s.alarms.alm, !s.alarms.inService.isEmpty, s.snaps.almostFull]]
      ++ wordBytes s.fieldCount
      ++ [byteOf (syncCode s.round.sync), byteOf s.round.flywheel, byteOf s.round.broken, byteOf s.cues.live.length,
        byteOf s.cues.preset.length]
      ++ wordBytes (BitVec.ofNat 16 s.cues.limit)
      ++ [byteOf s.alarms.threshold.val, byteOf ((s.alarms.inService.head?.map (fun e => e.source.val)).getD 0),
        byteOf (lineCode s.take.accepted), byteOf (lineCode s.hold.accepted), itemByte (cellsHeld s.snaps.store),
        byteOf (readoutCode s.snaps.readout.state)] := by
  unfold State.statusData AlarmUnit.current
  cases s.alarms.inService <;> rfl

theorem sourcePart1_eq (a : AlarmUnit) (src : Source) : a.sourcePart1 src =
    [flagByte [a.masked src, a.pending[src].isSome, (a.pending[src].map PendingRecord.again).getD false], byteOf (a.level src).val]
      ++ ((a.pending[src].map (fun x => detailBytes x.detail)).getD (List.replicate 6 0)) := by
  unfold AlarmUnit.sourcePart1
  cases a.pending[src] <;> rfl

theorem sourcePart2_none {a : AlarmUnit} {src : Source} (h : a.isInService src = false) :
    a.sourcePart2 src = List.replicate 10 0 := by
  have none : entryPosition src a.inService 1 = none := entryPosition_none 1 fun x hx e => by
    have : a.isInService src = true := List.any_eq_true.mpr ⟨x, hx, by simp [e]⟩
    rw [h] at this
    cases this
  simp only [AlarmUnit.sourcePart2, none]
  rfl

theorem sourcePart2_some {a : AlarmUnit} {src : Source} {above below : List Entry} {e : Entry}
    (h : a.inService = above ++ e :: below) (he : e.source = src) (hn : ∀ x ∈ above, x.source ≠ src) : a.sourcePart2 src =
    [1, byteOf (above.length + 1), byteOf src.val, byteOf (e.level.val + if e.again then 128 else 0)] ++ detailBytes e.detail := by
  have found : entryPosition src a.inService 1 = some (above.length + 1, e) := by
    rw [h]
    exact entryPosition_first he below 1 hn
  simp only [AlarmUnit.sourcePart2, found]
  rw [he]
  rfl

theorem cuePart1_eq (f : CueFields) : f.part1 =
    [flagByte [f.reference.isSome, f.follow.isSome, f.permit.isSome, f.snapshot, f.sense.isSome]]
      ++ wordBytes f.id ++ [byteOf (f.chain.val + 1), byteOf (kindCode f.kind),
        byteOf ((f.reference.map (fun n => n.val + 1)).getD 0)]
      ++ wordBytes f.frame ++ wordBytes (BitVec.ofInt 16 f.offset) ++ [byteOf (releaseCode f.release)]
      ++ wordBytes (f.follow.getD 0)
      ++ [byteOf ((f.permit.map (fun i => i.val + 1)).getD 0), byteOf ((f.sense.map senseCode).getD 0)] := by
  unfold CueFields.part1
  cases f.reference <;> cases f.permit <;> cases f.sense <;> rfl

theorem watchData_eq (w : Watch) : w.data =
    [flagByte [w.enabled, w.qualifier.isSome, w.output, w.previous.isSome, w.previous.getD false],
        byteOf (w.chain.val + 1), byteOf (signalCode w.signal), byteOf ((w.qualifier.map signalCode).getD 0),
        byteOf (modeCode w.mode), byteOf (edgeCode w.edge)]
      ++ wordBytes (BitVec.ofNat 16 w.limit) ++ [itemByte w.count] := by
  unfold Watch.data
  cases w.qualifier <;> rfl

theorem effectByte_mask (cadence late watch : Bool) : effectByte (.mask cadence late watch)
    = BitVec.ofNat 8 (cadence.toNat + 2 * late.toNat + 4 * watch.toNat + 128) := by
  cases cadence <;> cases late <;> cases watch <;> rfl

theorem replyTelegram_eq (r : Reply) : replyTelegram r =
    { dest := 14, src := 0, kind := kindDeskReply
      payload := [r.selector] ++ wordBytes (r.key.getD 0xFFFF) ++ [byteOf (outcomeCode r.outcome)] ++ wordBytes r.field
        ++ [byteOf (r.part + 128 * r.last.toNat), byteOf r.data.length] ++ r.data } := by
  unfold replyTelegram
  cases r.last <;> rfl

/-! ### READ BANK (R198) -/

theorem listening_bank (s : State) (name : BankName) : s.listening.bank name = s.bank name := by cases name <;> rfl

theorem bankCode_of {b : Byte} {name : BankName} (h : bankOf b = some name) : byteOf (bankCode name) = b := by
  unfold bankOf at h
  split at h
  · next e => rw [e, ← Option.some.inj h]; rfl
  · split at h
    · next e => rw [e, ← Option.some.inj h]; rfl
    · cases h

/-- The parts of a list of parts given by their index. -/
theorem numberParts_range (selector : Byte) (key : Option (BitVec 16)) (f : Field) (n : Nat) (data : Nat → List Byte) :
    numberParts selector key none f 1 ((List.range n).map data) = (List.range n).map (fun i =>
      { selector := selector, key := key, field := f, part := i + 1, last := decide (i + 1 = n), data := data i }) := by
  rw [numberParts_eq]
  refine List.ext_getElem (by simp) fun i h1 h2 => ?_
  simp

/-! ### The nine reads, one by one -/

section
variable {s : State} (hs : s.deskReady = true)
include hs

/-- Every read adds its replies to class 5, and nothing else (R196). -/
theorem exec_reads (p : List Byte) : ∀ c ∈ [Instr.readStatus p, .readChain p, .readGroup p, .readCue p, .readBank p, .readWatch p,
    .readPermit p, .readWindow p, .readAlarms p],
    ∃ replies, exec c s = .next (s.listening.queueReplies replies) ∧ WellNumbered s replies := by
  have reads {work : Handler} (hw : work ∈ ([readStatus, readChain, readGroup, readCue, readBank, readWatch, readPermit, readWindow,
      readAlarms] : List Handler)) (sel : Byte) : ∃ replies,
      (.next (s.deskCommand sel p (some work)) : Host.Outcome State Fault Refusal) = .next (s.listening.queueReplies replies)
        ∧ WellNumbered s replies := by
    obtain ⟨replies, e, hn⟩ := (reads_only work hw).replies hs sel p
    exact ⟨replies, congrArg Host.Outcome.next e, hn⟩
  simp only [List.forall_mem_cons, List.not_mem_nil, false_implies, implies_true, and_true]
  refine ⟨reads ?_ 0x30, reads ?_ 0x31, reads ?_ 0x32, reads ?_ 0x33, reads ?_ 0x34, reads ?_ 0x35, reads ?_ 0x36, reads ?_ 0x37,
    reads ?_ 0x38⟩
  all_goals simp

/-- A refused read is answered in one reply. -/
theorem next_refused {work : Handler} {p : List Byte} {key : Option (BitVec 16)} {r : Reason} (sel : Byte)
    (hw : work p s.listening = some (s.listening, refuse key r)) :
    (.next (s.deskCommand sel p (some work)) : Host.Outcome State Fault Refusal)
      = .next (s.listening.answered sel key (some r) []) :=
  congrArg Host.Outcome.next (deskCommand_refused hs sel p work key r hw)

/-- A read of one part. -/
theorem next_one {work : Handler} {p : List Byte} {key : Option (BitVec 16)} {d : List Byte} (sel : Byte)
    (hw : work p s.listening = some (s.listening, acceptWith key d)) :
    (.next (s.deskCommand sel p (some work)) : Host.Outcome State Fault Refusal) = .next (s.listening.answered sel key none d) :=
  congrArg Host.Outcome.next (deskCommand_one hs sel p work key none d hw rfl)

/-- A read with more parts than there is room for. -/
theorem next_busy {work : Handler} {p : List Byte} {key : Option (BitVec 16)} {parts : List (List Byte)} (sel : Byte)
    (hw : work p s.listening = some (s.listening, .reply key none parts)) (h : 16 < s.round.replies.length + parts.length) :
    (.next (s.deskCommand sel p (some work)) : Host.Outcome State Fault Refusal)
      = .next (s.listening.answered sel key (some .busy) []) :=
  congrArg Host.Outcome.next (read_busy hs sel hw h)

/-- A read of parts that there is room for. -/
theorem next_parts {work : Handler} {p : List Byte} {key : Option (BitVec 16)} {parts : List (List Byte)} (sel : Byte)
    (hw : work p s.listening = some (s.listening, .reply key none parts)) (h : s.round.replies.length + parts.length ≤ 16) :
    (.next (s.deskCommand sel p (some work)) : Host.Outcome State Fault Refusal)
      = .next (s.listening.queueReplies (numberParts sel key none s.fieldCount 1 parts)) :=
  congrArg Host.Outcome.next (read_answered hs sel hw h)

end

theorem readBank_listening {s : State} {b : Byte} {name : BankName} (h : bankOf b = some name) :
    readBank [b] s.listening = some (s.listening, .reply none none
      ((List.range (max 1 (((s.bank name).length + 5) / 6))).map (fun i =>
        [b, byteOf (s.bank name).length] ++ (((s.bank name).drop (6 * i)).take 6).flatMap bankEntry))) := by
  rw [readBank_of h, listening_bank, bankCode_of h]

/-- Settles O59: a read answers without a change of state; its parts are numbered, and their items are the data of the model. -/
theorem readsOnlyQueueReplies : Obligations.ReadsOnlyQueueReplies := by
  intro s hs u two chainOrNone
  have held16 : s.round.replies.length < 16 := (deskReady_elim hs).2.2
  refine ⟨fun p c hc => ?reads, ?refusals, ?status, fun b g hg => ?group, fun b k hk => ?watch, fun b i hi => ?permit,
    fun b name hb hl => ?smallBank, fun b name hb => ?bank, fun hroom => ⟨fun b n hn => ?chain, fun b src hsrc => ?alarm,
      fun b i0 i1 name c hb hid hc => ?cue⟩, fun hroom => ?alarms, fun l _ i hi => flagByte_getLsbD l i hi, wordBytes_eq,
    fun _ => rfl, rfl, rfl, rfl, rfl, rfl, rfl, fun _ _ => ⟨rfl, rfl⟩, rfl, rfl, rfl, rfl, rfl, rfl, rfl, rfl, rfl, rfl, rfl, rfl,
    rfl, rfl, rfl, fun _ => ⟨rfl, rfl⟩, rfl, effectByte_mask, rfl, replyTelegram_eq⟩
  case reads =>
    obtain ⟨replies, e, hn⟩ := exec_reads hs p c hc
    exact ⟨replies, e, hn.some, hn.room, hn.field, hn.part, hn.last⟩
  case refusals =>
    intro refused held
    refine ⟨fun b hb => ?_, fun b hb => ?_, fun b hb => ?_, fun b h42 hff => ?_, fun b name i0 i1 hb => ?_, fun h15 b => ?_,
      fun h14 => ?_⟩
    · have none := (indexOf_eq_none 8 b).mpr hb
      exact ⟨next_refused hs 0x31 (readChain_bad none), next_refused hs 0x36 (readPermit_bad none)⟩
    · have none := (indexOf_eq_none 16 b).mpr hb
      exact ⟨next_refused hs 0x35 (readWatch_bad none), next_refused hs 0x37 (readWindow_bad none)⟩
    · have none := (bankOf_eq_none b).mpr hb
      exact ⟨next_refused hs 0x32 (readGroup_bad ((groupOfCode_eq_none b).mpr hb)), next_refused hs 0x34 (readBank_bad none),
        fun i0 i1 => next_refused hs 0x33 (readCue_noBank none i0 i1)⟩
    · exact next_refused hs 0x38 (readAlarms_bad hff ((sourceOf_eq_none b).mpr h42))
    · refine ⟨fun hid => next_refused hs 0x33 (readCue_badId hb ?_),
        fun h1 h2 hn => next_refused hs 0x33 (readCue_notFound hb ?_ ?_), fun h1 h2 hc h15 => ?_,
        fun hroom => next_busy hs 0x34 (readBank_listening hb) ?_⟩
      · exact Bool.eq_false_iff.mpr (mt (LoadCue.goodId_iff _).mp hid)
      · exact (LoadCue.goodId_iff _).mpr ⟨h1, h2⟩
      · rw [listening_bank]
        exact Option.isNone_iff_eq_none.mp ((Steps.findCue_isNone_iff ..).mpr hn)
      · obtain ⟨c, found⟩ := Option.isSome_iff_exists.mp ((Steps.findCue_isSome_iff ..).mpr hc)
        rw [← listening_bank] at found
        exact next_busy hs 0x33 (readCue_of hb ((LoadCue.goodId_iff _).mpr ⟨h1, h2⟩) found) (by simp [held] at h15 ⊢; omega)
      · simpa [held] using hroom
    · refine ⟨fun h1 h2 => ?_, fun h41 => ?_⟩
      · obtain ⟨n, hn⟩ := exists_indexOf ⟨h1, h2⟩
        exact next_busy hs 0x31 (readChain_of hn) (by simp [held] at h15 ⊢; omega)
      · have source : sourceOf b = some ⟨b.toNat, by omega⟩ := sourceOf_eq_some.mpr rfl
        exact next_busy hs 0x38 (readAlarms_of source) (by simp [held] at h15 ⊢; omega)
    · exact next_busy hs 0x38 (readAlarms_all s.listening) (by simp [held, AlarmUnit.overview] at h14 ⊢; omega)
  case status =>
    intro data
    exact next_one hs 0x30 (congrArg (fun d => some (s.listening, acceptWith none d)) (statusData_eq s.listening))
  case group =>
    intro r flight out data
    have hw := readGroup_of (s := s.listening) hg
    rw [listening_group, groupData_eq _ chainOrNone fun _ => rfl] at hw
    exact next_one hs 0x32 hw
  case watch =>
    intro w watch window
    have hw := readWatch_of (s := s.listening) hk
    rw [watchData_eq] at hw
    refine ⟨next_one hs 0x35 hw, fun hx => next_one hs 0x37 ?_, fun x hx => next_one hs 0x37 ?_⟩
    · have unset : s.listening.windows[k] = none := hx
      rw [readWindow_of hk, unset]
      rfl
    · have set : s.listening.windows[k] = some x := hx
      rw [readWindow_of hk, set]
      rfl
  case permit => exact next_one hs 0x36 (readPermit_of hi)
  case smallBank =>
    refine next_one hs 0x34 ((readBank_listening hb).trans ?_)
    have one : max 1 (((s.bank name).length + 5) / 6) = 1 := by omega
    rw [one, bankCode_of hb, List.range_one, List.map_singleton, Nat.mul_zero, List.drop_zero, List.take_of_length_le hl]
    rfl
  case bank =>
    intro bank parts hroom
    refine (next_parts hs 0x34 (readBank_listening hb) (by simpa using hroom)).trans ?_
    rw [numberParts_range]
  case chain =>
    intro r c first second
    exact next_parts hs 0x31 (readChain_of hn) (by simp; omega)
  case alarm =>
    intro a p first
    have hw := readAlarms_of (s := s.listening) hsrc
    rw [sourcePart1_eq] at hw
    refine ⟨fun hn => ?_, fun above e below hl he hn => ?_⟩
    · rw [sourcePart2_none (a := s.listening.alarms) hn] at hw
      exact next_parts hs 0x38 hw (by simp; omega)
    · rw [sourcePart2_some (a := s.listening.alarms) hl he hn] at hw
      exact next_parts hs 0x38 hw (by simp; omega)
  case cue =>
    intro f r first second
    have hw := readCue_of (s := s.listening) hb hid (c := c) (by rw [listening_bank]; exact hc)
    rw [cuePart1_eq] at hw
    exact next_parts hs 0x33 hw (by simp; omega)
  case alarms =>
    intro a part entries
    refine ⟨pendingBytes s.alarms, pendingBytes_getLsbD s.alarms, ?_⟩
    have hw := readAlarms_all s.listening
    rw [overview_eq] at hw
    exact next_parts hs 0x38 hw (by simp; omega)

end Sys2Proof.Proofs.ReadData
end
